-- ==== Sys2Proof/Word.lean ====
section
/-! DEFINITION. The word types of the block: bytes, 16-bit values, host request words and 9-byte frames. -/

namespace Sys2Proof

/-- A byte, bit 0 the least significant (00_scope.md R7). -/
abbrev Byte := BitVec 8

/-- An unsigned 16-bit value (00_scope.md R7). -/
abbrev U16 := BitVec 16

/-- A host request word, format HREQ26 (30_encoding.md R58). -/
abbrev HReq := BitVec 26

/-- A frame: exactly nine bytes, `b0` at offset 0, the first on the wire (30_encoding.md R50). -/
structure Frame where
  b0 : Byte
  b1 : Byte
  b2 : Byte
  b3 : Byte
  b4 : Byte
  b5 : Byte
  b6 : Byte
  b7 : Byte
  b8 : Byte
deriving DecidableEq, Repr, Inhabited

/-- Nine zero bytes. -/
def Frame.zeros : Frame := ⟨0, 0, 0, 0, 0, 0, 0, 0, 0⟩

end Sys2Proof
end

