-- ==== Sys2Proof/Config.lean ====
section
/-! DEFINITION. Constants the spec fixes (00_scope.md R5), parameters it leaves open (R6), and the free inputs of the
environment: the channel's answers and the turns of the agents. -/

namespace Sys2Proof

namespace Config

/-- Bytes in every frame. -/
def frameLen : Nat := 9

/-- First offset the checksum sums. -/
def csumLo : Nat := 1

/-- Last offset the checksum sums. -/
def csumHi : Nat := 7

/-- Offset of the checksum byte. -/
def csumPos : Nat := 8

/-- Byte at offset 0 of every frame. -/
def start : Byte := 0xFF

/-- Byte at offset 1 of every command frame. -/
def addr : Byte := 0x01

/-- Byte at offset 1 of a read-reply frame. -/
def ackRead : Byte := 0x86

def opRead : Byte := 0x86
def opZero : Byte := 0x87
def opSpan : Byte := 0x88
def opAbc : Byte := 0x79
def opRange : Byte := 0x99

def abcOn : Byte := 0xA0
def abcOff : Byte := 0x00

def range2000 : U16 := 2000
def range5000 : U16 := 5000

/-- `T_WAIT`, in milliseconds. -/
def tWaitMs : Nat := 100

/-- `FAIL_LIMIT`: READ fails when `FAILCNT` exceeds it. -/
def failLimit : Nat := 8

/-- The serial settings applied when the channel is opened (20_memory.md R34). -/
structure Uart where
  baud : Nat
  dataBits : Nat
  parity : Bool
  stopBits : Nat
deriving DecidableEq, Repr

/-- 9600 baud, 8 data bits, no parity, 1 stop bit. -/
def uart : Uart := ⟨9600, 8, false, 1⟩

/-- `F_CLK_HZ`, open; no rule depends on it (92 D3). -/
opaque clockHz : Nat

/-- `CH_READ_TIMEOUT` in milliseconds, open (92 D13). A time-out is one of the free `readErr` answers. -/
opaque chReadTimeoutMs : Option Nat

/-- What `RX_FIFO_DEPTH` has beyond nine, open (92 D14). -/
opaque rxFifoSpare : Nat

/-- `RX_FIFO_DEPTH`, at least nine; no rule depends on it (92 D14). -/
def rxFifoDepth : Nat := 9 + rxFifoSpare

end Config

/-- What the channel answers to the primitive called in one step: "its answer is chosen by the environment"
(20_memory.md section 5). A step calls at most one primitive and reads that primitive's answer only. -/
structure ChanAnswer where
  /-- `ChOpen` answers `ok` (R40). -/
  openOk : Bool
  /-- `ChWrite`: `none` is `ok`, `some n` is `io_err` with the first `n` bytes appended (R36, 92 D20). -/
  writeErr : Option Nat
  /-- `ChRead`: `some n` is `io_err` with `n` bytes, at most eight, consumed (R37, 92 D20). -/
  readErr : Option Nat
  /-- `ChDrain`: `none` discards all bytes present, `some n` the first `n` of them (R38, 92 D26). -/
  drainCut : Option Nat
deriving DecidableEq, Repr, Inhabited

/-- The answers of a channel that never fails. -/
def ChanAnswer.allOk : ChanAnswer := ⟨true, none, none, none⟩

/-- One move of one of the agents (10_state.md R10). -/
inductive Turn where
  /-- The block takes one step; `a` holds the channel's answers to it. -/
  | transceiver (a : ChanAnswer)
  /-- The host puts `w` on its request port (R21). -/
  | hostPresents (w : HReq)
  /-- The host reads `PPM` (R17, R21). -/
  | hostReadsPpm
  /-- The device appends bytes to the RX stream (R25). -/
  | deviceSends (bs : List Byte)
  /-- The device consumes the first `n` bytes of the TX stream (R25). DESIGN CHOICE, log 24: the line has no move on that stream,
  where 20_memory.md R33 does not state whether it can lose or alter bytes on their way to the device; what a device that
  takes them makes of them is its own. -/
  | deviceTakes (n : Nat)
  /-- The line replaces the received byte at position `i` (20_memory.md R33, 92 D14; log 16). -/
  | lineAlters (i : Nat) (b : Byte)
  /-- The line loses the received byte at position `i` (20_memory.md R33, 92 D14). -/
  | lineDrops (i : Nat)
  /-- The integrator asserts reset while `n` bytes of the primitive in progress have moved
  (70_reset_and_hazards.md R135, R136). -/
  | reset (n : Nat)
deriving DecidableEq, Repr, Inhabited

/-- The free value of the environment: which agent moves, and how, where State names no further turn. No body: nothing
can be proved of its values (log 1). -/
opaque Config.freeTurn : Nat → Turn

end Sys2Proof
end

