-- ==== Sys2Proof/Machine/Frame.lean ====
section
/-! DEFINITION. Frames by offset, the order of their bytes on the wire, and the joining and splitting of 16-bit fields. -/

namespace Sys2Proof.Machine

/-- The bytes of a frame in the order they go on the wire: offset 0 first (20_memory.md R32). -/
def frameBytes (f : Frame) : List Byte :=
  [f.b0, f.b1, f.b2, f.b3, f.b4, f.b5, f.b6, f.b7, f.b8]

/-- The first nine bytes of a stream as a frame, and the rest; `none` while fewer than nine are there (20_memory.md R37). -/
def takeFrame : List Byte → Option (Frame × List Byte)
  | b0 :: b1 :: b2 :: b3 :: b4 :: b5 :: b6 :: b7 :: b8 :: rest => some (⟨b0, b1, b2, b3, b4, b5, b6, b7, b8⟩, rest)
  | _ => none

/-- `F[i]` (00_scope.md R7). -/
def frameGet (f : Frame) (i : Fin 9) : Byte :=
  match i with
  | 0 => f.b0
  | 1 => f.b1
  | 2 => f.b2
  | 3 => f.b3
  | 4 => f.b4
  | 5 => f.b5
  | 6 => f.b6
  | 7 => f.b7
  | 8 => f.b8

/-- `f` with the byte at offset `i` replaced. -/
def frameSet (f : Frame) (i : Fin 9) (b : Byte) : Frame :=
  match i with
  | 0 => { f with b0 := b }
  | 1 => { f with b1 := b }
  | 2 => { f with b2 := b }
  | 3 => { f with b3 := b }
  | 4 => { f with b4 := b }
  | 5 => { f with b5 := b }
  | 6 => { f with b6 := b }
  | 7 => { f with b7 := b }
  | 8 => { f with b8 := b }

/-- A frame as the 72-bit number of the opcode table: offset 0 in bits 71..64 (30_encoding.md R50). -/
def frameToNum (f : Frame) : BitVec 72 :=
  f.b0 ++ f.b1 ++ f.b2 ++ f.b3 ++ f.b4 ++ f.b5 ++ f.b6 ++ f.b7 ++ f.b8

/-- The frame of a 72-bit number of the opcode table (30_encoding.md R50). -/
def frameOfNum (w : BitVec 72) : Frame :=
  ⟨w.extractLsb' 64 8, w.extractLsb' 56 8, w.extractLsb' 48 8, w.extractLsb' 40 8, w.extractLsb' 32 8,
    w.extractLsb' 24 8, w.extractLsb' 16 8, w.extractLsb' 8 8, w.extractLsb' 0 8⟩

/-- `v[15:8]`. -/
def hiByte (v : U16) : Byte := v.extractLsb' 8 8

/-- `v[7:0]`. -/
def loByte (v : U16) : Byte := v.extractLsb' 0 8

/-- The 16-bit value with `hi` in bits 15..8, at the lower offset of a frame (30_encoding.md R64). -/
def joinBytes (hi lo : Byte) : U16 := hi ++ lo

end Sys2Proof.Machine
end

