-- ==== Sys2Proof/Machine/Checksum.lean ====
section
/-! DEFINITION. The Checksum unit (40_checksum.md). -/

namespace Sys2Proof.Machine

/-- The bytes at the offsets `CSUM_LO` to `CSUM_HI` of a frame. -/
def summedBytes (f : Frame) : List Byte :=
  ((frameBytes f).drop Config.csumLo).take (Config.csumHi + 1 - Config.csumLo)

/-- `s`: the sum of those bytes modulo 256. -/
def frameSum (f : Frame) : Byte := (summedBytes f).foldl (fun s b => s + b) 0

/-- `Checksum(F)`: the sum, inverted, plus one, modulo 256 (R70). -/
def checksum (f : Frame) : Byte := ~~~ (frameSum f) + 1

end Sys2Proof.Machine
end

