-- ==== Sys2Proof/Machine/FrameCodec.lean ====
section
/-! DEFINITION. The Frame Codec (41_frame_codec.md): Encode, DecodeReadReply, Classify. -/

namespace Sys2Proof.Machine

/-- `Encode(op, d1, d2)`: the command frame, stamped with the checksum computed while offset 8 is zero (R75). -/
def encodeFrame (op d1 d2 : Byte) : Frame :=
  let f : Frame := ⟨Config.start, Config.addr, op, d1, d2, 0, 0, 0, 0⟩
  { f with b8 := checksum f }

/-- `csum_ok` of a received frame (10_state.md R19, 40_checksum.md R73). -/
def csumOk (f : Frame) : Bool := checksum f == f.b8

/-- `hdr_ok` of a received frame (10_state.md R19). -/
def hdrOk (f : Frame) : Bool := f.b0 == Config.start && f.b1 == Config.ackRead

/-- The concentration field of a reply (30_encoding.md R64). -/
def ppmField (f : Frame) : U16 := joinBytes f.b2 f.b3

/-- `DecodeReadReply(F)`: the ppm value, or `none` for `invalid` (R78). -/
def decodeReadReply (f : Frame) : Option U16 :=
  if f.b0 = Config.start ∧ f.b1 = Config.ackRead ∧ checksum f = f.b8 then some (ppmField f) else none

/-- The three classes of received frames (R79). -/
inductive FrameClass where
  | corrupt
  | irrelevant
  | relevant (ppm : U16)
deriving DecidableEq, Repr

/-- `Classify(F)`: the checksum is tested first, the header second (R79). -/
def classify (f : Frame) : FrameClass :=
  if csumOk f = false then .corrupt
  else if hdrOk f = false then .irrelevant
  else .relevant (ppmField f)

end Sys2Proof.Machine
end

