-- ==== Sys2Proof/Syntax.lean ====
section
/-! DEFINITION. The operations: one constructor per row of spec/opcode_table.json. -/

namespace Sys2Proof

/-- The seven host operations (00_scope.md R2, 30_encoding.md R57; RANGE has two rows) and the received frame READ_REPLY. -/
inductive Instr where
  /-- OPEN (42_open_close.md R85). -/
  | openOp
  /-- CLOSE (42_open_close.md R87). -/
  | closeOp
  /-- READ (43_read.md R90). -/
  | read
  /-- ZERO (44_oneshot_commands.md R107). -/
  | zero
  /-- SPAN target (44_oneshot_commands.md R108). -/
  | span (target : U16)
  /-- ABC enabled (44_oneshot_commands.md R109). -/
  | abc (enabled : Bool)
  /-- RANGE, row R2000 (44_oneshot_commands.md R110). -/
  | range2000
  /-- RANGE, row R5000 (44_oneshot_commands.md R110). -/
  | range5000
  /-- READ_REPLY: a received frame with header FF 86; `d4` to `d7` are its offsets 4 to 7, `cs` its offset 8
  (30_encoding.md R54). The row's match and mask select the header only, so any `cs` is a term of this type. -/
  | readReply (ppm : U16) (d4 d5 d6 d7 cs : Byte)
deriving DecidableEq, Repr

end Sys2Proof
end

