-- ==== Sys2Proof/WellFormed.lean ====
section
/-! DEFINITION. Which terms of `Instr` are instructions the spec's encodings admit. -/

namespace Sys2Proof

/-- The frame a READ_REPLY term stands for (30_encoding.md R54). -/
def replyFrame (ppm : U16) (d4 d5 d6 d7 cs : Byte) : Frame :=
  ⟨Config.start, Config.ackRead, Machine.hiByte ppm, Machine.loByte ppm, d4, d5, d6, d7, cs⟩

/-- The typed requests are legal by themselves (30_encoding.md R57); a READ_REPLY is a reply only with the right
checksum at offset 8 (R54). -/
def Instr.wellFormed : Instr → Bool
  | .openOp => true
  | .closeOp => true
  | .read => true
  | .zero => true
  | .span _ => true
  | .abc _ => true
  | .range2000 => true
  | .range5000 => true
  | .readReply ppm d4 d5 d6 d7 cs => Machine.csumOk (replyFrame ppm d4 d5 d6 d7 cs)

end Sys2Proof
end

