-- ==== Sys2Proof/Decode.lean ====
section
/-! DEFINITION. The decoder of host request words and received frames, total and rejecting by name, and the encoder. -/

namespace Sys2Proof

/-- Why a word or frame is no instruction (30_encoding.md R65). -/
inductive DecodeError where
  /-- `kind = 3`. -/
  | reservedKind
  /-- `kind = 0` with an opcode outside the five. -/
  | unknownOpcode (op : Byte)
  /-- READ or ZERO with `arg` not zero. -/
  | argumentNotZero (arg : U16)
  /-- ABC with `arg` above 1. -/
  | abcArgument (arg : U16)
  /-- RANGE with `arg` neither 2000 nor 5000. -/
  | rangeArgument (arg : U16)
  /-- A received frame without the header FF 86. -/
  | notReadReply
deriving DecidableEq, Repr

/-- `HREQ26.kind` (30_encoding.md R58). -/
def reqKind (w : HReq) : BitVec 2 := w.extractLsb' 24 2

/-- `HREQ26.op` (30_encoding.md R58). -/
def reqOp (w : HReq) : Byte := w.extractLsb' 16 8

/-- `HREQ26.arg` (30_encoding.md R58). -/
def reqArg (w : HReq) : U16 := w.extractLsb' 0 16

/-- The command of an opcode byte and an argument (30_encoding.md R59); also what the latch `CMD_OP`, `CMD_ARG` means. -/
def decodeCommand (op : Byte) (arg : U16) : Except DecodeError Instr :=
  if op = Config.opRead then
    if arg = 0 then .ok .read else .error (.argumentNotZero arg)
  else if op = Config.opZero then
    if arg = 0 then .ok .zero else .error (.argumentNotZero arg)
  else if op = Config.opSpan then .ok (.span arg)
  else if op = Config.opAbc then
    if arg = 0 then .ok (.abc false) else if arg = 1 then .ok (.abc true) else .error (.abcArgument arg)
  else if op = Config.opRange then
    if arg = Config.range2000 then .ok .range2000
    else if arg = Config.range5000 then .ok .range5000
    else .error (.rangeArgument arg)
  else .error (.unknownOpcode op)

/-- The request of a word (30_encoding.md R59, R65). -/
def decodeRequest (w : HReq) : Except DecodeError Instr :=
  if reqKind w = 0 then decodeCommand (reqOp w) (reqArg w)
  else if reqKind w = 1 then .ok .openOp
  else if reqKind w = 2 then .ok .closeOp
  else .error .reservedKind

/-- The READ_REPLY of a received frame, by its header alone, as the table's row has it. -/
def decodeReply (f : Frame) : Except DecodeError Instr :=
  if f.b0 = Config.start ∧ f.b1 = Config.ackRead then
    .ok (.readReply (Machine.joinBytes f.b2 f.b3) f.b4 f.b5 f.b6 f.b7 f.b8)
  else .error .notReadReply

/-- The two encodings the block decodes: the host's word and the device's frame. -/
inductive Encoded where
  | request (w : HReq)
  | frame (f : Frame)
deriving DecidableEq, Repr

/-- The decoder. -/
def decode : Encoded → Except DecodeError Instr
  | .request w => decodeRequest w
  | .frame f => decodeReply f

/-- A request word from its fields (30_encoding.md R58). -/
def makeReq (kind : BitVec 2) (op : Byte) (arg : U16) : HReq := kind ++ op ++ arg

/-- `op` and `arg` of a command (30_encoding.md R59); `none` for what is no command. -/
def commandFields : Instr → Option (Byte × U16)
  | .openOp => none
  | .closeOp => none
  | .read => some (Config.opRead, 0)
  | .zero => some (Config.opZero, 0)
  | .span target => some (Config.opSpan, target)
  | .abc enabled => some (Config.opAbc, if enabled then 1 else 0)
  | .range2000 => some (Config.opRange, Config.range2000)
  | .range5000 => some (Config.opRange, Config.range5000)
  | .readReply _ _ _ _ _ _ => none

/-- The encoder: the word or frame of an instruction (30_encoding.md R54, R59). The ignored fields of OPEN and CLOSE are
written as zeros. -/
def encode (i : Instr) : Encoded :=
  match i with
  | .openOp => .request (makeReq 1 0 0)
  | .closeOp => .request (makeReq 2 0 0)
  | .read => .request (makeReq 0 Config.opRead 0)
  | .zero => .request (makeReq 0 Config.opZero 0)
  | .span target => .request (makeReq 0 Config.opSpan target)
  | .abc enabled => .request (makeReq 0 Config.opAbc (if enabled then 1 else 0))
  | .range2000 => .request (makeReq 0 Config.opRange Config.range2000)
  | .range5000 => .request (makeReq 0 Config.opRange Config.range5000)
  | .readReply ppm d4 d5 d6 d7 cs => .frame (replyFrame ppm d4 d5 d6 d7 cs)

/-- The decoder on a row of the opcode table, its bits numbered as the table numbers them: a word of at most 32 bits is an
HREQ26 word, a longer one is a frame, bit 7 of offset 0 the most significant of 72 (30_encoding.md R50; log 6). -/
def decodeTableWord (nbits w : Nat) : Option Instr :=
  if nbits ≤ 32 then
    if w < 2 ^ 26 then (decodeRequest (BitVec.ofNat 26 w)).toOption else none
  else if nbits ≤ 72 then
    if w < 2 ^ 72 then (decodeReply (Machine.frameOfNum (BitVec.ofNat 72 w))).toOption else none
  else none

end Sys2Proof
end

