-- ==== Sys2Proof/Machine/State.lean ====
section
/-! DEFINITION. The machine's state: the block's registers, its host port, the channel's streams, the observable history,
and the model's own fields for what the environment does. -/

namespace Sys2Proof.Machine

/-- `PHASE` (10_state.md R11). -/
inductive Phase where
  | idle
  | tx
  | settle
  | rx
  | drain
  | backoff
deriving DecidableEq, Repr

/-- `STATUS` (10_state.md R18). -/
inductive Status where
  | none
  | ok
  | errConn
  | errIo
  | errCsum
deriving DecidableEq, Repr

/-- One call of a channel primitive with its result, as an observer outside the block sees it (10_state.md R26). -/
inductive ChEvent where
  /-- `Open(ok|fail)`, with the settings applied (20_memory.md R34, R40). -/
  | opened (settings : Config.Uart) (ok : Bool)
  | closed
  /-- `Write(F)`; `ok = false` is `io_err`. -/
  | write (f : Frame) (ok : Bool)
  /-- `Read(F)`. -/
  | read (f : Frame)
  /-- `Read(io_err)`. -/
  | readErr
  | drain
  | sleep (ms : Nat)
deriving DecidableEq, Repr

/-- Everything the spec gives the machine, and below the line the model's own fields. -/
structure State where
  /-- `PHASE`, R11. -/
  phase : Phase
  /-- `OPENED`, R12. -/
  opened : Bool
  /-- `CMD_OP`, R13. -/
  cmdOp : Byte
  /-- `CMD_ARG`, R13. -/
  cmdArg : U16
  /-- `TXBUF[0..8]`, R14. -/
  txbuf : Frame
  /-- `RXBUF[0..8]`, R15. -/
  rxbuf : Frame
  /-- `FAILCNT`, R16. -/
  failcnt : BitVec 4
  /-- `PPM`, R17. -/
  ppm : U16
  /-- `STATUS`, R18. -/
  status : Status
  /-- The request presented on the host port, R21. -/
  req : Option HReq
  /-- The `refused` event of the block's last step, R21. -/
  refused : Bool
  /-- Bytes written and not yet consumed by the device, in order, R24; as they were written, log 24. -/
  txStream : List Byte
  /-- Bytes sent by the device and not yet consumed, in order, R24. -/
  rxStream : List Byte
  /-- The channel history of the operation last accepted, oldest call first, R26. -/
  history : List ChEvent
  /-- The operation last accepted since reset, R17. -/
  lastOp : Option Instr
  -- The model's own fields: the environment.
  /-- The channel's answers to the block's current step (log 3). -/
  chan : ChanAnswer
  /-- The turns to come, first the next (log 1). -/
  turns : List Turn
  /-- The turns that follow when `turns` runs out, over and over (log 20). -/
  again : List Turn
  /-- Where the next free turn is drawn when both lists are empty (log 1). -/
  tick : Nat
  /-- What the host got from its last read of `PPM` (log 11). -/
  hostPpm : Option U16
deriving DecidableEq, Repr

/-- Why the machine stops. Nothing the block does by the spec is among these: its three error kinds are next states
(60_exceptions.md R132 (a)). -/
inductive Fault where
  /-- Raised by the host's turn `hostReadsPpm` while `STATUS` is not `OK` or the last accepted operation was not READ
  (60_exceptions.md R132 (f), 10_state.md R17). Safe: the spec calls the read a fault of the model. -/
  | ppmNotMeaningful
  /-- Raised by a step in phase TX whose latch is no command; `Operands` "is never applied to any other" pair
  (41_frame_codec.md R77). Safe: no reachable state has such a latch (log 12). -/
  | latchNotACommand
deriving DecidableEq, Repr

/-- Why an instruction has no meaning. -/
inductive Refusal where
  /-- Raised by an arm of `exec` that has no meaning yet; no arm is left in this state. Safe: the machine stops. -/
  | notModelled (mnemonic : String)
deriving DecidableEq, Repr

/-- The machine right after reset (10_state.md R23, 70_reset_and_hazards.md R135). The values R23 calls unspecified are
log 2's, those of the model's own fields log 1, 3, 4, 11 and 13's. -/
def State.reset : State where
  phase := .idle
  opened := false
  cmdOp := 0
  cmdArg := 0
  txbuf := Frame.zeros
  rxbuf := Frame.zeros
  failcnt := 0
  ppm := 0
  status := .none
  req := none
  refused := false
  txStream := []
  rxStream := []
  history := []
  lastOp := none
  chan := ChanAnswer.allOk
  turns := []
  again := []
  tick := 0
  hostPpm := none

end Sys2Proof.Machine
end

