-- ==== Sys2Proof/Machine/Flags.lean ====
section
/-! DEFINITION. Codes and derived signals: the codes of PHASE and STATUS, busy, csum_ok, hdr_ok, limit_hit (10_state.md
R11, R18, R19), the error kinds (60_exceptions.md R116) and what the host sees (R21). -/

namespace Sys2Proof.Machine

/-- The 3-bit code of a phase (R11). -/
def phaseCode (p : Phase) : BitVec 3 :=
  match p with
  | .idle => 0
  | .tx => 1
  | .settle => 2
  | .rx => 3
  | .drain => 4
  | .backoff => 5

/-- The 3-bit code of a status (R18). -/
def statusCode (st : Status) : BitVec 3 :=
  match st with
  | .none => 0
  | .ok => 1
  | .errConn => 2
  | .errIo => 3
  | .errCsum => 4

/-- The three error kinds (60_exceptions.md R115). -/
inductive ErrorKind where
  | connectionError
  | ioError
  | checksumExhausted
deriving DecidableEq, Repr

/-- The status an error kind is reported as (60_exceptions.md R116). -/
def errorStatus (e : ErrorKind) : Status :=
  match e with
  | .connectionError => .errConn
  | .ioError => .errIo
  | .checksumExhausted => .errCsum

/-- `busy` (R19). -/
def busy (s : State) : Bool := decide (s.phase ≠ .idle)

/-- `csum_ok` (R19). -/
def rxCsumOk (s : State) : Bool := csumOk s.rxbuf

/-- `hdr_ok` (R19). -/
def rxHdrOk (s : State) : Bool := hdrOk s.rxbuf

/-- `limit_hit`: `FAILCNT > 8` (R19). -/
def limitHit (s : State) : Bool := decide (s.failcnt.toNat > Config.failLimit)

/-- `PPM` is meaningful only while `STATUS = OK` and the last accepted operation was READ (R17). -/
def ppmMeaningful (s : State) : Bool := decide (s.status = .ok ∧ s.lastOp = some .read)

/-- The signals from the block to the host that can be read at any time (R21). -/
structure HostView where
  busy : Bool
  opened : Bool
  status : BitVec 3
  refused : Bool
deriving DecidableEq, Repr

/-- What the host sees (R21). -/
def hostView (s : State) : HostView := ⟨busy s, s.opened, statusCode s.status, s.refused⟩

/-- What an observer sees of the last operation: its channel history, the final `STATUS`, and `PPM` when it is a READ's
result (R26). -/
def observation (s : State) : List ChEvent × Status × Option U16 :=
  (s.history, s.status, if ppmMeaningful s then some s.ppm else none)

end Sys2Proof.Machine
end

