-- ==== Sys2Proof/Machine/Operands.lean ====
section
/-! DEFINITION. The operand mapper: from the latched command to the opcode and data bytes of its frame (41_frame_codec.md
R77, 30_encoding.md R60 to R63). -/

namespace Sys2Proof.Machine

/-- The bytes `op`, `d1`, `d2` of a command frame. -/
structure CmdBytes where
  op : Byte
  d1 : Byte
  d2 : Byte
deriving DecidableEq, Repr

/-- The payload byte of ABC, `{e, 0, e, 0, 0, 0, 0, 0}` (30_encoding.md R62). -/
def abcByte (enabled : Bool) : Byte := if enabled then Config.abcOn else Config.abcOff

/-- `Operands(CMD_OP, CMD_ARG)`; `none` for a pair that is never latched (R77). -/
def operands (op : Byte) (arg : U16) : Option CmdBytes :=
  match decodeCommand op arg with
  | .ok .read => some ⟨op, 0, 0⟩
  | .ok .zero => some ⟨op, 0, 0⟩
  | .ok (.span target) => some ⟨op, hiByte target, loByte target⟩
  | .ok (.abc enabled) => some ⟨op, abcByte enabled, 0⟩
  | .ok .range2000 => some ⟨op, hiByte arg, loByte arg⟩
  | .ok .range5000 => some ⟨op, hiByte arg, loByte arg⟩
  | .ok .openOp => none
  | .ok .closeOp => none
  | .ok (.readReply _ _ _ _ _ _) => none
  | .error _ => none

/-- The frame of a latched command, `Encode(Operands(CMD_OP, CMD_ARG))` (R77). -/
def commandFrame (op : Byte) (arg : U16) : Option Frame :=
  (operands op arg).map fun c => encodeFrame c.op c.d1 c.d2

/-- The command the latch holds, if it holds one. -/
def latched (s : State) : Option Instr := (decodeCommand s.cmdOp s.cmdArg).toOption

end Sys2Proof.Machine
end

