-- ==== Sys2Proof/Machine/Ops.lean ====
section
/-! DEFINITION. The shared operations: the six channel primitives (20_memory.md R36 to R41), acceptance, hold and refusal
(60_exceptions.md R117 to R119), the ends of an operation (R120, R121), and the steps of the phases (43_read.md). -/

namespace Sys2Proof.Machine

/-- The outcome of a step of this machine. -/
abbrev Result := Host.Outcome State Fault Refusal

/-! ## The ends of an operation -/

/-- `raise E`, the error end: `STATUS <- code(E)`, `PHASE <- IDLE`, and nothing else; nothing is saved and there is no
return operation (60_exceptions.md R121, R125). -/
def raise (e : ErrorKind) (s : State) : State :=
  { s with status := errorStatus e, phase := .idle }

/-- The normal end: `STATUS <- OK`, `PHASE <- IDLE` (60_exceptions.md R120). -/
def endOk (s : State) : State :=
  { s with status := .ok, phase := .idle }

/-! ## Acceptance, hold, refusal -/

/-- Acceptance of a request: `STATUS <- NONE`; the request is taken off the port and a new channel history begins
(60_exceptions.md R118). -/
def acceptRequest (i : Instr) (s : State) : State :=
  { s with status := .none, req := none, lastOp := some i, history := [] }

/-- Acceptance of a command: the latch is written and `PHASE <- TX` (60_exceptions.md R118). -/
def acceptCommand (i : Instr) (op : Byte) (arg : U16) (s : State) : State :=
  { acceptRequest i s with cmdOp := op, cmdArg := arg, phase := .tx }

/-- Refusal: the `refused` event, no primitive, and no register changes (60_exceptions.md R119). -/
def refuseRequest (s : State) : State :=
  { s with refused := true, req := none }

/-- Hold: a request presented while the block is busy waits and changes nothing (60_exceptions.md R117). -/
def holdRequest (s : State) : State := s

/-! ## The channel primitives -/

/-- `ChOpen()`: the answer; the settings are applied, nothing is sent or read (20_memory.md R40). -/
def chOpen (s : State) : Bool × State :=
  (s.chan.openOk, { s with history := s.history ++ [.opened Config.uart s.chan.openOk] })

/-- `ChClose()`: cannot fail (20_memory.md R41). -/
def chClose (s : State) : State :=
  { s with history := s.history ++ [.closed] }

/-- `ChWrite(F)`: on `ok` the nine bytes are appended in offset order, on `io_err` a prefix of them
(20_memory.md R36). -/
def chWrite (f : Frame) (s : State) : Bool × State :=
  match s.chan.writeErr with
  | none =>
    (true, { s with txStream := s.txStream ++ frameBytes f, history := s.history ++ [.write f true] })
  | some n =>
    (false, { s with txStream := s.txStream ++ (frameBytes f).take n, history := s.history ++ [.write f false] })

/-- What `ChRead` comes to. -/
inductive ReadOutcome where
  | frame (f : Frame) (s : State)
  | ioErr (s : State)
  | blocked
deriving DecidableEq, Repr

/-- The successful end of a `ChRead` that returned `f`: its nine bytes are gone from the RX stream
(20_memory.md R37). -/
def consumeFrame (f : Frame) (s : State) : State :=
  { s with rxStream := s.rxStream.drop Config.frameLen, history := s.history ++ [.read f] }

/-- `ChRead()`: the first nine bytes of the RX stream, or `io_err` with at most eight bytes consumed; with fewer than
nine bytes and no `io_err` it has no step (20_memory.md R37). -/
def chRead (s : State) : ReadOutcome :=
  match s.chan.readErr with
  | some n =>
    .ioErr { s with rxStream := s.rxStream.drop (min n (Config.frameLen - 1)), history := s.history ++ [.readErr] }
  | none =>
    match takeFrame s.rxStream with
    | some (f, _) => .frame f (consumeFrame f s)
    | none => .blocked

/-- `ChDrain()`: the bytes present, or a prefix of them, are thrown away; it cannot fail (20_memory.md R38). -/
def chDrain (s : State) : State :=
  { s with
    rxStream := match s.chan.drainCut with
      | none => []
      | some n => s.rxStream.drop n
    history := s.history ++ [.drain] }

/-- `Sleep(T_WAIT)` (20_memory.md R39). -/
def chSleep (s : State) : State :=
  { s with history := s.history ++ [.sleep Config.tWaitMs] }

/-! ## The steps of the phases -/

/-- Phase TX: the frame of the latch is built in `TXBUF` and written (43_read.md R91, 44_oneshot_commands.md R105). -/
def txStep (s : State) : Result :=
  match commandFrame s.cmdOp s.cmdArg with
  | none => .fault .latchNotACommand
  | some f =>
    match chWrite f { s with txbuf := f } with
    | (false, t) => .next (raise .ioError t)
    | (true, t) => .next (if t.cmdOp = Config.opRead then { t with phase := .settle } else endOk t)

/-- Phase SETTLE (43_read.md R95). -/
def settleStep (s : State) : State :=
  { chSleep s with phase := .rx }

/-- The validation of a frame just read, and the branch taken (43_read.md R94, R96, R98, R99). -/
def receiveFrame (f : Frame) (s : State) : State :=
  let t := { s with rxbuf := f }
  match classify t.rxbuf with
  | .corrupt => { t with failcnt := t.failcnt + 1, phase := .drain }
  | .irrelevant => { t with phase := .backoff }
  | .relevant p => endOk { t with failcnt := 0, ppm := p }

/-- Phase RX: nine bytes are read and validated in the same step (43_read.md R93). -/
def rxStep (s : State) : State :=
  match chRead s with
  | .frame f t => receiveFrame f t
  | .ioErr t => raise .ioError t
  | .blocked => s

/-- Phase DRAIN: the drain, then the limit test (43_read.md R97). -/
def drainStep (s : State) : State :=
  let t := chDrain s
  if limitHit t then raise .checksumExhausted t else { t with phase := .backoff }

/-- Phase BACKOFF (43_read.md R100). -/
def backoffStep (s : State) : State :=
  { chSleep s with phase := .tx }

end Sys2Proof.Machine
end

