-- ==== Sys2Proof/Machine/Agents.lean ====
section
/-! DEFINITION. The agents outside the block and the schedule of turns (10_state.md R10), and the block's fetch: which
instruction its next step runs. -/

namespace Sys2Proof.Machine

/-- The next turn, and the state without it: the head of `turns`; when that is empty, of `again`, over and over; when both
are empty, a free turn (log 1). -/
def nextTurn (s : State) : Turn × State :=
  match s.turns with
  | t :: ts => (t, { s with turns := ts })
  | [] =>
    match s.again with
    | t :: ts => (t, { s with turns := ts })
    | [] => (Config.freeTurn s.tick, { s with tick := s.tick + 1 })

/-- The start of a step of the block: the channel's answers are there, the last step's `refused` event is over. -/
def beginStep (a : ChanAnswer) (s : State) : State :=
  { s with chan := a, refused := false }

/-- The host puts a word on its port; what stood there is replaced (20_memory.md R45; log 5). -/
def hostPresents (w : HReq) (s : State) : State :=
  { s with req := some w }

/-- The host reads `PPM`: a fault unless it is meaningful (60_exceptions.md R132 (f)). -/
def hostReadsPpm (s : State) : Result :=
  if ppmMeaningful s then .next { s with hostPpm := some s.ppm } else .fault .ppmNotMeaningful

/-- The device appends to the RX stream (10_state.md R25). -/
def deviceSends (bs : List Byte) (s : State) : State :=
  { s with rxStream := s.rxStream ++ bs }

/-- The device consumes from the TX stream (10_state.md R25). -/
def deviceTakes (n : Nat) (s : State) : State :=
  { s with txStream := s.txStream.drop n }

/-- The line alters a received byte (20_memory.md R33). -/
def lineAlters (i : Nat) (b : Byte) (s : State) : State :=
  { s with rxStream := s.rxStream.set i b }

/-- The line loses a received byte (92 D14). -/
def lineDrops (i : Nat) (s : State) : State :=
  { s with rxStream := s.rxStream.eraseIdx i }

/-- What the primitive in progress had moved when reset came: a prefix of the frame being written, up to eight bytes being
read, a prefix of the bytes being drained (70_reset_and_hazards.md R136; log 10). -/
def abandonPrimitive (n : Nat) (s : State) : State :=
  match s.phase with
  | .idle => s
  | .tx =>
    match commandFrame s.cmdOp s.cmdArg with
    | some f => { s with txStream := s.txStream ++ (frameBytes f).take n }
    | none => s
  | .settle => s
  | .rx => { s with rxStream := s.rxStream.drop (min n (Config.frameLen - 1)) }
  | .drain => { s with rxStream := s.rxStream.drop n }
  | .backoff => s

/-- Reset: every register of the block at its value of `State.reset`, the operation abandoned without a `STATUS`; the
streams, the host's port and the environment are not the block's and stay (70_reset_and_hazards.md R135, R136). -/
def resetBlock (n : Nat) (s : State) : State :=
  let t := abandonPrimitive n s
  { State.reset with
    req := t.req, txStream := t.txStream, rxStream := t.rxStream, chan := t.chan, turns := t.turns, again := t.again,
    tick := t.tick, hostPpm := t.hostPpm }

/-- What the block's next step runs. -/
inductive Fetched where
  /-- IDLE and no request: the block waits (10_state.md R23). -/
  | waiting
  /-- IDLE and an illegal word (30_encoding.md R65). -/
  | illegal (e : DecodeError)
  /-- TX and a latch that is no command (log 12). -/
  | noCommand
  | run (i : Instr)
deriving DecidableEq, Repr

/-- The fetch. In IDLE the instruction is the request presented. In TX it is the command of the latch. In RX it is the
READ_REPLY at the front of the RX stream where `ChRead` returns one, else READ. The other phases are READ's. -/
def fetch (s : State) : Fetched :=
  match s.phase with
  | .idle =>
    match s.req with
    | none => .waiting
    | some w =>
      match decodeRequest w with
      | .ok i => .run i
      | .error e => .illegal e
  | .tx =>
    match latched s with
    | some i => .run i
    | none => .noCommand
  | .settle => .run .read
  | .rx =>
    match chRead s with
    | .frame f _ =>
      match decodeReply f with
      | .ok i => .run i
      | .error _ => .run .read
    | .ioErr _ => .run .read
    | .blocked => .run .read
  | .drain => .run .read
  | .backoff => .run .read

/-- The bytes of a table word laid where the next step fetches from: a request word on the host port of an idle block, a
longer word as a frame at the front of the RX stream of a block in RX; the transceiver's turn is next, with no read error
in the way of a frame. -/
def placeWord (s : State) (nbits w : Nat) : State :=
  if nbits ≤ 32 then
    { s with phase := .idle, req := some (BitVec.ofNat 26 w), turns := .transceiver s.chan :: s.turns }
  else
    { s with
      phase := .rx, rxStream := frameBytes (frameOfNum (BitVec.ofNat 72 w)) ++ s.rxStream,
      turns := .transceiver { s.chan with readErr := none } :: s.turns }

end Sys2Proof.Machine
end

