-- ==== Sys2Proof/Machine/LifeCycle.lean ====
section
/-! DEFINITION. OPEN and CLOSE (42_open_close.md). -/

namespace Sys2Proof.Machine

/-- OPEN (R85): accepted in IDLE with `OPENED = 0`, refused with `OPENED = 1` (R86), held while the block is busy. -/
def execOpen (s : State) : Result :=
  if s.phase ≠ .idle then .next (holdRequest s)
  else if s.opened then .next (refuseRequest s)
  else
    match chOpen (acceptRequest .openOp s) with
    | (true, t) => .next (endOk { t with opened := true })
    | (false, t) => .next (raise .connectionError t)

/-- CLOSE (R87): accepted in IDLE with `OPENED = 1`, refused with `OPENED = 0` (R88), held while the block is busy. -/
def execClose (s : State) : Result :=
  if s.phase ≠ .idle then .next (holdRequest s)
  else if s.opened then .next (endOk { chClose (acceptRequest .closeOp s) with opened := false })
  else .next (refuseRequest s)

end Sys2Proof.Machine
end

