-- ==== Sys2Proof/Machine/OneShot.lean ====
section
/-! DEFINITION. The one-shot commands ZERO, SPAN, ABC, RANGE (44_oneshot_commands.md). -/

namespace Sys2Proof.Machine

/-- The common path (R105) of the command `i` with request fields `op` and `arg`: accepted or refused in IDLE; in TX, if
it is the command the latch holds, written; in any other case held. -/
def oneShot (i : Instr) (op : Byte) (arg : U16) (s : State) : Result :=
  match s.phase with
  | .idle => .next (if s.opened then acceptCommand i op arg s else refuseRequest s)
  | .tx => if s.cmdOp = op ∧ s.cmdArg = arg then txStep s else .next (holdRequest s)
  | .settle => .next (holdRequest s)
  | .rx => .next (holdRequest s)
  | .drain => .next (holdRequest s)
  | .backoff => .next (holdRequest s)

/-- ZERO (R107). -/
def execZero (s : State) : Result := oneShot .zero Config.opZero 0 s

/-- SPAN target (R108). -/
def execSpan (target : U16) (s : State) : Result := oneShot (.span target) Config.opSpan target s

/-- ABC enabled (R109). -/
def execAbc (enabled : Bool) (s : State) : Result :=
  oneShot (.abc enabled) Config.opAbc (if enabled then 1 else 0) s

/-- RANGE 2000 (R110). -/
def execRange2000 (s : State) : Result := oneShot .range2000 Config.opRange Config.range2000 s

/-- RANGE 5000 (R110). -/
def execRange5000 (s : State) : Result := oneShot .range5000 Config.opRange Config.range5000 s

end Sys2Proof.Machine
end

