-- ==== Sys2Proof/Machine/Read.lean ====
section
/-! DEFINITION. The READ operation and the received READ_REPLY (43_read.md). -/

namespace Sys2Proof.Machine

/-- READ (R90): accepted (R92) or refused in IDLE; in the other phases its next step. In TX it is held if the latch holds
another command; the phases after TX belong to READ alone (R95). -/
def execRead (s : State) : Result :=
  match s.phase with
  | .idle =>
    .next (if s.opened then { acceptCommand .read Config.opRead 0 s with failcnt := 0 } else refuseRequest s)
  | .tx => if s.cmdOp = Config.opRead ∧ s.cmdArg = 0 then txStep s else .next (holdRequest s)
  | .settle => .next (settleStep s)
  | .rx => .next (rxStep s)
  | .drain => .next (drainStep s)
  | .backoff => .next (backoffStep s)

/-- READ_REPLY: in phase RX the frame `ChRead` returned is consumed and validated (R93, R94); in any other phase the
block does not look at it and it stays in the RX stream (R95, R142). -/
def execReadReply (ppm : U16) (d4 d5 d6 d7 cs : Byte) (s : State) : Result :=
  let f := replyFrame ppm d4 d5 d6 d7 cs
  .next (if s.phase = .rx then receiveFrame f (consumeFrame f s) else s)

end Sys2Proof.Machine
end

