-- ==== Sys2Proof/Machine/Dispatch.lean ====
section
/-! DEFINITION. One arm per instruction. -/

namespace Sys2Proof.Machine

/-- The meaning of an instruction. -/
def exec (i : Instr) (s : State) : Host.Outcome State Fault Refusal :=
  match i with
  | .openOp => Sys2Proof.Machine.execOpen s
  | .closeOp => Sys2Proof.Machine.execClose s
  | .read => Sys2Proof.Machine.execRead s
  | .zero => Sys2Proof.Machine.execZero s
  | .span target => Sys2Proof.Machine.execSpan target s
  | .abc enabled => Sys2Proof.Machine.execAbc enabled s
  | .range2000 => Sys2Proof.Machine.execRange2000 s
  | .range5000 => Sys2Proof.Machine.execRange5000 s
  | .readReply ppm d4 d5 d6 d7 cs => Sys2Proof.Machine.execReadReply ppm d4 d5 d6 d7 cs s

end Sys2Proof.Machine
end

