-- ==== Sys2Proof/Machine/Step.lean ====
section
/-! DEFINITION. One step of the machine: the turn of one agent. -/

namespace Sys2Proof.Machine

/-- One step of the block: it runs the instruction it fetches. -/
def transceiver (s : State) : Result :=
  match fetch s with
  | .waiting => .next s
  | .illegal _ => .next (refuseRequest s)
  | .noCommand => .fault .latchNotACommand
  | .run i => exec i s

/-- One step of the machine: the agent whose turn it is moves (10_state.md R10). -/
def step (s : State) : Host.Outcome State Fault Refusal :=
  let (turn, t) := nextTurn s
  match turn with
  | .transceiver a => transceiver (beginStep a t)
  | .hostPresents w => .next (hostPresents w t)
  | .hostReadsPpm => hostReadsPpm t
  | .deviceSends bs => .next (deviceSends bs t)
  | .deviceTakes n => .next (deviceTakes n t)
  | .lineAlters i b => .next (lineAlters i b t)
  | .lineDrops i => .next (lineDrops i t)
  | .reset n => .next (resetBlock n t)

/-- The state with a table word where the next step fetches its instruction (log 7). -/
def State.withFetchWord (s : State) (nbits w : Nat) : State := placeWord s nbits w

end Sys2Proof.Machine
end

