-- ==== Sys2Proof/Safety.lean ====
section
/-! DEFINITION. What a safe run is, in the terms the statements use: the invariant, the shape of a READ's channel history,
the frames and words of the spec's tables written out, and scripted environments. -/

namespace Sys2Proof.Machine

/-! ## The invariant -/

/-- What every state of a run satisfies, whatever the environment does. -/
structure State.Inv (s : State) : Prop where
  /-- While busy: the handle is held, `STATUS` is `NONE`, and the latch holds the operation last accepted. -/
  busyLatch : s.phase ≠ .idle → s.opened = true ∧ s.status = .none ∧ s.lastOp ≠ none ∧ latched s = s.lastOp
  /-- The phases after TX are entered by READ only (43_read.md R95, 44_oneshot_commands.md R105). -/
  readPhases : s.phase ≠ .idle → s.phase ≠ .tx → s.lastOp = some .read
  /-- `FAILCNT` never exceeds 9 (10_state.md R16). -/
  countMax : s.failcnt.toNat ≤ 9
  /-- A READ that goes on has seen at most eight corrupt frames (43_read.md R96, R97). -/
  countRunning : s.phase ≠ .idle → s.phase ≠ .drain → s.lastOp = some .read → s.failcnt.toNat ≤ 8
  /-- DRAIN is entered only after an increment (43_read.md R97). -/
  countDrain : s.phase = .drain → 1 ≤ s.failcnt.toNat
  /-- Before the first acceptance the block is as reset left it. -/
  untouched : s.lastOp = none → s.phase = .idle ∧ s.opened = false ∧ s.status = .none
  /-- An operation that ended has an outcome (60_exceptions.md R120, R121). -/
  ended : s.phase = .idle → s.lastOp ≠ none → s.status ≠ .none
  /-- Without the handle, the last operation was OPEN or CLOSE, if there was one (60_exceptions.md R118). -/
  noHandle : s.opened = false → s.lastOp = none ∨ s.lastOp = some .openOp ∨ s.lastOp = some .closeOp
  /-- The latch keeps the last command (10_state.md R13). -/
  lastCommand : s.lastOp = none ∨ s.lastOp = some .openOp ∨ s.lastOp = some .closeOp ∨ latched s = s.lastOp
  /-- `ConnectionError` is OPEN's (60_exceptions.md R116). -/
  errConn : s.status = .errConn → s.lastOp = some .openOp ∧ s.opened = false
  /-- `IOError` is a command's (60_exceptions.md R116). -/
  errIo : s.status = .errIo → s.lastOp ≠ none ∧ latched s = s.lastOp
  /-- `ChecksumExhausted` is READ's, with `FAILCNT` at 9 (43_read.md R97). -/
  errCsum : s.status = .errCsum → s.lastOp = some .read ∧ s.failcnt = 9
  /-- After a READ that ended well `PPM` is the value of the validated frame in `RXBUF` (43_read.md R98). -/
  readOk : s.status = .ok → s.lastOp = some .read → classify s.rxbuf = .relevant s.ppm ∧ s.failcnt = 0

/-! ## The tables of the spec, written out -/

/-- The frames of 30_encoding.md R53, offset by offset. -/
def wireFrame (i : Instr) : Option Frame :=
  match i with
  | .openOp => none
  | .closeOp => none
  | .read => some ⟨0xFF, 0x01, 0x86, 0x00, 0x00, 0x00, 0x00, 0x00, 0x79⟩
  | .zero => some ⟨0xFF, 0x01, 0x87, 0x00, 0x00, 0x00, 0x00, 0x00, 0x78⟩
  | .span target =>
    some ⟨0xFF, 0x01, 0x88, target.extractLsb' 8 8, target.extractLsb' 0 8, 0x00, 0x00, 0x00,
      ~~~ (0x89 + target.extractLsb' 8 8 + target.extractLsb' 0 8) + 1⟩
  | .abc true => some ⟨0xFF, 0x01, 0x79, 0xA0, 0x00, 0x00, 0x00, 0x00, 0xE6⟩
  | .abc false => some ⟨0xFF, 0x01, 0x79, 0x00, 0x00, 0x00, 0x00, 0x00, 0x86⟩
  | .range2000 => some ⟨0xFF, 0x01, 0x99, 0x07, 0xD0, 0x00, 0x00, 0x00, 0x8F⟩
  | .range5000 => some ⟨0xFF, 0x01, 0x99, 0x13, 0x88, 0x00, 0x00, 0x00, 0xCB⟩
  | .readReply _ _ _ _ _ _ => none

/-- `op` and `arg` of the commands as the table of 30_encoding.md R59 has them. -/
def wireFields (i : Instr) : Option (Byte × U16) :=
  match i with
  | .openOp => none
  | .closeOp => none
  | .read => some (0x86, 0x0000)
  | .zero => some (0x87, 0x0000)
  | .span target => some (0x88, target)
  | .abc true => some (0x79, 0x0001)
  | .abc false => some (0x79, 0x0000)
  | .range2000 => some (0x99, 0x07D0)
  | .range5000 => some (0x99, 0x1388)
  | .readReply _ _ _ _ _ _ => none

/-- The frame of READ (30_encoding.md R53). -/
def readFrame : Frame := ⟨0xFF, 0x01, 0x86, 0x00, 0x00, 0x00, 0x00, 0x00, 0x79⟩

/-- The rows of the transition table of 43_read.md R90 and of 44_oneshot_commands.md R105, as pairs of phases. -/
def tableRows : List (Phase × Phase) :=
  [(.idle, .tx), (.tx, .settle), (.tx, .idle), (.settle, .rx), (.rx, .idle), (.rx, .drain), (.rx, .backoff),
    (.drain, .idle), (.drain, .backoff), (.backoff, .tx)]

/-- The state in which the block's step runs when the turn is the transceiver's: the turn is taken, the answers are there,
the last `refused` event is over. -/
def State.started (s : State) (a : ChanAnswer) (ts : List Turn) : State :=
  { s with turns := ts, chan := a, refused := false }

/-! ## The channel history of a READ (43_read.md R101, R103) -/

/-- `W` of the grammar of R103: the READ frame, written. -/
def wroteRead : ChEvent := .write readFrame true

/-- `S` of the grammar of R103: a wait of 100 ms. -/
def waited : ChEvent := .sleep 100

/-- One cycle that goes on: `W S R(corrupt) D S` or `W S R(irrelevant) S`. -/
def cycleEvents (f : Frame) : List ChEvent :=
  if classify f = .corrupt then [wroteRead, waited, .read f, .drain, waited]
  else [wroteRead, waited, .read f, waited]

/-- The cycles of the frames `fs`, one after the other. -/
def cyclesEvents (fs : List Frame) : List ChEvent := fs.flatMap cycleEvents

/-- `k` of R101: how many of the frames are corrupt. -/
def corruptCount (fs : List Frame) : Nat := fs.countP fun f => classify f = .corrupt

/-- None of the frames ends a READ: each is corrupt or irrelevant. -/
def NoneRelevant (fs : List Frame) : Prop := ∀ f ∈ fs, classify f = .corrupt ∨ classify f = .irrelevant

/-- The history of a READ is one of the grammar of R103, cut where the READ stands, and `FAILCNT` counts its corrupt
frames. -/
def ReadGrammar (s : State) : Prop :=
  s.lastOp = some .read →
  ∃ fs : List Frame, NoneRelevant fs ∧ corruptCount fs ≤ 8 ∧
    match s.phase with
    | .tx => s.history = cyclesEvents fs ∧ s.failcnt.toNat = corruptCount fs
    | .settle => s.history = cyclesEvents fs ++ [wroteRead] ∧ s.failcnt.toNat = corruptCount fs
    | .rx => s.history = cyclesEvents fs ++ [wroteRead, waited] ∧ s.failcnt.toNat = corruptCount fs
    | .drain => s.failcnt.toNat = corruptCount fs + 1 ∧
        ∃ f, classify f = .corrupt ∧ s.history = cyclesEvents fs ++ [wroteRead, waited, .read f]
    | .backoff => s.history ++ [waited] = cyclesEvents fs ∧ s.failcnt.toNat = corruptCount fs
    | .idle =>
      match s.status with
      | .ok => s.failcnt = 0 ∧
          ∃ f, classify f = .relevant s.ppm ∧ s.history = cyclesEvents fs ++ [wroteRead, waited, .read f]
      | .errCsum => s.failcnt = 9 ∧ corruptCount fs = 8 ∧
          ∃ f, classify f = .corrupt ∧ s.history = cyclesEvents fs ++ [wroteRead, waited, .read f, .drain]
      | .errIo => s.failcnt.toNat = corruptCount fs ∧
          (s.history = cyclesEvents fs ++ [.write readFrame false] ∨
            s.history = cyclesEvents fs ++ [wroteRead, waited, .readErr])
      | .none => False
      | .errConn => False

/-- How many calls of a history are writes. -/
def writeCount (h : List ChEvent) : Nat := h.countP fun e => match e with | .write _ _ => true | _ => false

/-- How many calls of a history are reads that returned a frame of which `p` holds. -/
def readCount (p : Frame → Bool) (h : List ChEvent) : Nat := h.countP fun e => match e with | .read f => p f | _ => false

/-- How many calls of a history are drains. -/
def drainCount (h : List ChEvent) : Nat := h.countP fun e => match e with | .drain => true | _ => false

/-- How many calls of a history are waits. -/
def sleepCount (h : List ChEvent) : Nat := h.countP fun e => match e with | .sleep _ => true | _ => false

/-! ## Scripted environments -/

/-- A turn of the block on a channel that never fails. -/
def okTurn : Turn := .transceiver ChanAnswer.allOk

/-- The environment of one cycle that goes on: the device sends `f` and the block takes the steps of TX, SETTLE, RX, after a
corrupt frame DRAIN, and BACKOFF. -/
def cycleTurns (f : Frame) : List Turn :=
  if classify f = .corrupt then .deviceSends (frameBytes f) :: List.replicate 5 okTurn
  else .deviceSends (frameBytes f) :: List.replicate 4 okTurn

/-- The environment of a READ: the host presents it, the block accepts it, a cycle for each frame of `fs`, and then the
frame `g`, after which the block takes `n` steps. -/
def readTurns (fs : List Frame) (g : Frame) (n : Nat) : List Turn :=
  [.hostPresents 0x0860000, okTurn] ++ fs.flatMap cycleTurns ++ .deviceSends (frameBytes g) :: List.replicate n okTurn

end Sys2Proof.Machine
end

