-- ==== Sys2Proof/Certificates/Slice0/Obligations.lean ====
section
/-! DEFINITION. The statements for the provers. -/

open Sys2Proof Sys2Proof.Machine

/-! ## The checksum -/

/-- 40_checksum.md R70: the sum of offsets 1 to 7, inverted, plus one; offsets 0 and 8 are not read; the corner cases. -/
def Obligations.ChecksumInvertsTheSumAndAddsOne : Prop :=
  (∀ f : Frame, checksum f = ~~~ (f.b1 + f.b2 + f.b3 + f.b4 + f.b5 + f.b6 + f.b7) + 1) ∧
  (∀ (f : Frame) (b : Byte), checksum (frameSet f 0 b) = checksum f ∧ checksum (frameSet f 8 b) = checksum f) ∧
  (∀ f : Frame,
    (f.b1 + f.b2 + f.b3 + f.b4 + f.b5 + f.b6 + f.b7 = 0x00 → checksum f = 0x00) ∧
    (f.b1 + f.b2 + f.b3 + f.b4 + f.b5 + f.b6 + f.b7 = 0x80 → checksum f = 0x80) ∧
    (f.b1 + f.b2 + f.b3 + f.b4 + f.b5 + f.b6 + f.b7 = 0x01 → checksum f = 0xFF) ∧
    (f.b1 + f.b2 + f.b3 + f.b4 + f.b5 + f.b6 + f.b7 = 0xFF → checksum f = 0x01)) ∧
  (∀ x : Byte, checksum ⟨0xFF, 0x01, 0x86, 0x00, 0x00, 0x00, 0x00, 0x00, x⟩ = 0x79)

/-- 40_checksum.md R71: the closed form, and that a frame passes exactly when offsets 1 to 8 sum to zero. -/
def Obligations.ChecksumIsTheNegatedSum : Prop :=
  ∀ f : Frame,
    (checksum f).toNat = (256 - (f.b1 + f.b2 + f.b3 + f.b4 + f.b5 + f.b6 + f.b7).toNat) % 256 ∧
    f.b1 + f.b2 + f.b3 + f.b4 + f.b5 + f.b6 + f.b7 + checksum f = 0 ∧
    (csumOk f = true ↔ f.b1 + f.b2 + f.b3 + f.b4 + f.b5 + f.b6 + f.b7 + f.b8 = 0)

/-- 40_checksum.md R74: a stamped frame passes; every change of one byte at offsets 1 to 8 is found, a change of offset 0
never is, and a change of two bytes that cancels is not. -/
def Obligations.ChecksumFindsEverySingleByteChange : Prop :=
  (∀ f : Frame, csumOk (frameSet f 8 (checksum f)) = true) ∧
  (∀ (f : Frame) (i : Fin 9) (b : Byte), csumOk f = true → i ≠ 0 → b ≠ frameGet f i → csumOk (frameSet f i b) = false) ∧
  (∀ (f : Frame) (b : Byte), csumOk (frameSet f 0 b) = csumOk f) ∧
  (∀ (f : Frame) (i j : Fin 9) (d : Byte), i ≠ j → i ≠ 0 → j ≠ 0 → i ≠ 8 → j ≠ 8 →
    csumOk (frameSet (frameSet f i (frameGet f i + d)) j (frameGet f j - d)) = csumOk f)

/-! ## The frame codec -/

/-- 41_frame_codec.md R75: `Encode`, byte by byte, with its corner cases and its worked example. -/
def Obligations.EncodeBuildsTheStampedFrame : Prop :=
  (∀ op d1 d2 : Byte,
    encodeFrame op d1 d2 = ⟨0xFF, 0x01, op, d1, d2, 0x00, 0x00, 0x00, ~~~ (0x01 + op + d1 + d2) + 1⟩) ∧
  encodeFrame 0x88 0x77 0x00 = ⟨0xFF, 0x01, 0x88, 0x77, 0x00, 0x00, 0x00, 0x00, 0x00⟩ ∧
  encodeFrame 0x88 0x01 0x77 = ⟨0xFF, 0x01, 0x88, 0x01, 0x77, 0x00, 0x00, 0x00, 0xFF⟩ ∧
  encodeFrame 0x86 0x00 0x00 = ⟨0xFF, 0x01, 0x86, 0x00, 0x00, 0x00, 0x00, 0x00, 0x79⟩

/-- 41_frame_codec.md R76: an encoded frame passes the checksum test and is never taken for a reading. -/
def Obligations.EncodedFramesAreIrrelevant : Prop :=
  ∀ op d1 d2 : Byte, csumOk (encodeFrame op d1 d2) = true ∧ classify (encodeFrame op d1 d2) = .irrelevant ∧
    decodeReadReply (encodeFrame op d1 d2) = none

/-- 41_frame_codec.md R77, 30_encoding.md R53: the frame sent for a latched command is the one of the table, and no other
latch sends one. -/
def Obligations.LatchedCommandsSendTheTablesFrames : Prop :=
  (∀ (i : Instr) (op : Byte) (arg : U16), wireFields i = some (op, arg) → commandFrame op arg = wireFrame i) ∧
  (∀ (op : Byte) (arg : U16), (∀ i : Instr, wireFields i ≠ some (op, arg)) → commandFrame op arg = none)

/-- 41_frame_codec.md R78: the decoder tests offset 0, offset 1 and the checksum, and nothing else. -/
def Obligations.ReadReplyTestsHeaderAndChecksum : Prop :=
  (∀ (f : Frame) (p : U16), decodeReadReply f = some p ↔
    f.b0 = 0xFF ∧ f.b1 = 0x86 ∧ checksum f = f.b8 ∧ p = f.b2 ++ f.b3) ∧
  (∀ f : Frame, decodeReadReply f = none ↔ ¬ (f.b0 = 0xFF ∧ f.b1 = 0x86 ∧ checksum f = f.b8)) ∧
  decodeReadReply ⟨0xFF, 0x86, 0x04, 0x4B, 0x00, 0x00, 0x00, 0x00, 0x2B⟩ = some 1099 ∧
  decodeReadReply ⟨0xFF, 0x86, 0x00, 0x00, 0x00, 0x00, 0x00, 0x00, 0x7A⟩ = some 0 ∧
  decodeReadReply ⟨0xFF, 0x86, 0xFF, 0xFF, 0x00, 0x00, 0x00, 0x00, 0x7C⟩ = some 65535

/-- 41_frame_codec.md R79: the three classes, the checksum tested first; their relation to `DecodeReadReply`. -/
def Obligations.ClassifyTestsTheChecksumFirst : Prop :=
  ∀ f : Frame,
    (classify f = .corrupt ↔ checksum f ≠ f.b8) ∧
    (classify f = .irrelevant ↔ checksum f = f.b8 ∧ (f.b0 ≠ 0xFF ∨ f.b1 ≠ 0x86)) ∧
    (∀ p, classify f = .relevant p ↔ checksum f = f.b8 ∧ f.b0 = 0xFF ∧ f.b1 = 0x86 ∧ p = f.b2 ++ f.b3) ∧
    (∀ p, decodeReadReply f = some p ↔ classify f = .relevant p) ∧
    (decodeReadReply f = none ↔ classify f = .corrupt ∨ classify f = .irrelevant)

/-- 41_frame_codec.md R80: for each choice of offsets 0 to 7 exactly one offset 8 passes; the notable irrelevant buffers. -/
def Obligations.OneChecksumByteFitsEachBuffer : Prop :=
  (∀ f : Frame, ∃ c : Byte, ∀ b : Byte, classify (frameSet f 8 b) ≠ .corrupt ↔ b = c) ∧
  classify Frame.zeros = .irrelevant ∧
  classify ⟨0xFF, 0x01, 0x86, 0x00, 0x00, 0x00, 0x00, 0x00, 0x79⟩ = .irrelevant ∧
  classify ⟨0x00, 0x86, 0x04, 0x4B, 0x00, 0x00, 0x00, 0x00, 0x2B⟩ = .irrelevant

/-- 41_frame_codec.md R82: a relevant frame with any one byte changed is no reading: irrelevant if it is offset 0, corrupt
if it is another. -/
def Obligations.ChangedByteIsNeverAReading : Prop :=
  ∀ (f : Frame) (p : U16) (i : Fin 9) (b : Byte), classify f = .relevant p → b ≠ frameGet f i →
    decodeReadReply (frameSet f i b) = none ∧
    classify (frameSet f i b) = (if i = 0 then .irrelevant else .corrupt)

/-! ## Encodings -/

/-- Every instruction, with every operand, decodes from what it encodes to (READ_REPLY as an instruction is log 8, the ignored
bits of OPEN and CLOSE are written as zeros, log 19). -/
def Obligations.DecodeOfEncodeIsTheInstruction : Prop :=
  ∀ i : Instr, decode (encode i) = .ok i

/-- 30_encoding.md R59, R65 (a decision of the spec, 92 D4): a word decodes exactly when it fits a row of the table, to that
row's request with the row's argument (the two rows of RANGE are two constructors, log 19). -/
def Obligations.RequestWordsAreTheTablesRows : Prop :=
  ∀ w : HReq,
    (decodeRequest w = .ok .openOp ↔ w &&& 0x3000000 = 0x1000000) ∧
    (decodeRequest w = .ok .closeOp ↔ w &&& 0x3000000 = 0x2000000) ∧
    (decodeRequest w = .ok .read ↔ w &&& 0x3FFFFFF = 0x0860000) ∧
    (decodeRequest w = .ok .zero ↔ w &&& 0x3FFFFFF = 0x0870000) ∧
    (∀ target, decodeRequest w = .ok (.span target) ↔ w &&& 0x3FF0000 = 0x0880000 ∧ target = w.extractLsb' 0 16) ∧
    (∀ e, decodeRequest w = .ok (.abc e) ↔ w &&& 0x3FFFFFE = 0x0790000 ∧ e = w.getLsbD 0) ∧
    (decodeRequest w = .ok .range2000 ↔ w &&& 0x3FFFFFF = 0x09907D0) ∧
    (decodeRequest w = .ok .range5000 ↔ w &&& 0x3FFFFFF = 0x0991388) ∧
    (∀ ppm d4 d5 d6 d7 cs, decodeRequest w ≠ .ok (.readReply ppm d4 d5 d6 d7 cs))

/-- Words of 95_test_vectors.md V2 and a frame of V3, accepted and refused, in the numbering of log 6. -/
def Obligations.TheSpecsWordsDecode : Prop :=
  decodeTableWord 32 0x1000000 = some .openOp ∧ decodeTableWord 32 0x1ABCDEF = some .openOp ∧
  decodeTableWord 32 0x2000000 = some .closeOp ∧ decodeTableWord 32 0x0860000 = some .read ∧
  decodeTableWord 32 0x0870000 = some .zero ∧ decodeTableWord 32 0x08803E8 = some (.span 1000) ∧
  decodeTableWord 32 0x088FFFF = some (.span 65535) ∧ decodeTableWord 32 0x0790001 = some (.abc true) ∧
  decodeTableWord 32 0x0790000 = some (.abc false) ∧ decodeTableWord 32 0x09907D0 = some .range2000 ∧
  decodeTableWord 32 0x0991388 = some .range5000 ∧
  decodeTableWord 72 0xFF86044B000000002B = some (.readReply 1099 0 0 0 0 0x2B) ∧
  decodeTableWord 32 0x0860001 = none ∧ decodeTableWord 32 0x0870100 = none ∧ decodeTableWord 32 0x0790002 = none ∧
  decodeTableWord 32 0x09907D1 = none ∧ decodeTableWord 32 0x0990BB8 = none ∧ decodeTableWord 32 0x0850000 = none ∧
  decodeTableWord 32 0x0000000 = none ∧ decodeTableWord 32 0x3000000 = none

/-- 10_state.md R11, R18 (the spec's own codes, 92 D5, D8), and R116's codes of the error kinds. -/
def Obligations.PhaseAndStatusCodes : Prop :=
  [Phase.idle, .tx, .settle, .rx, .drain, .backoff].map phaseCode = [0, 1, 2, 3, 4, 5] ∧
  [Status.none, .ok, .errConn, .errIo, .errCsum].map statusCode = [0, 1, 2, 3, 4] ∧
  [ErrorKind.connectionError, .ioError, .checksumExhausted].map (fun e => statusCode (errorStatus e)) = [2, 3, 4]

/-! ## A step -/

/-- When the turn is the transceiver's, the step is the meaning of the instruction fetched: in IDLE the request on the port,
in TX the command of the latch, in RX the READ_REPLY at the front of the stream; in every other case of a busy block READ
(the model's fetch, log 1, 8 and 12). -/
def Obligations.StepRunsTheFetchedInstruction : Prop :=
  ∀ (s : State) (a : ChanAnswer) (ts : List Turn), s.turns = .transceiver a :: ts →
    (s.phase = .idle → s.req = none → step s = .next (s.started a ts)) ∧
    (∀ w i, s.phase = .idle → s.req = some w → decode (.request w) = .ok i → step s = exec i (s.started a ts)) ∧
    (∀ i, s.phase = .tx → decodeCommand s.cmdOp s.cmdArg = .ok i → step s = exec i (s.started a ts)) ∧
    (∀ f rest i, s.phase = .rx → a.readErr = none → takeFrame s.rxStream = some (f, rest) → decode (.frame f) = .ok i →
      step s = exec i (s.started a ts) ∧ step s = exec .read (s.started a ts)) ∧
    (s.phase ≠ .idle → s.phase ≠ .tx → step s = exec .read (s.started a ts))

/-- The word that `withFetchWord` lays down is the one the next step runs, on the host port or as a frame (log 7). -/
def Obligations.PlacedWordIsTheNextInstruction : Prop :=
  ∀ (s : State) (nbits w : Nat) (i : Instr), decodeTableWord nbits w = some i →
    ∃ t, step (s.withFetchWord nbits w) = exec i t ∧ t.opened = s.opened ∧ t.failcnt = s.failcnt ∧
      t.cmdOp = s.cmdOp ∧ t.cmdArg = s.cmdArg ∧ t.ppm = s.ppm ∧ t.status = s.status ∧ t.txStream = s.txStream

/-- The turn taken is the head of `turns`, then of `again`, which stays, so that it comes round for ever; a free turn is
taken only where both are empty (the model's choice, log 1 and 20). -/
def Obligations.TurnsComeFromTheSchedule : Prop :=
  ∀ s : State,
    (∀ t ts, s.turns = t :: ts → nextTurn s = (t, { s with turns := ts })) ∧
    (∀ t ts, s.turns = [] → s.again = t :: ts → nextTurn s = (t, { s with turns := ts })) ∧
    (s.turns = [] → s.again = [] → nextTurn s = (Config.freeTurn s.tick, { s with tick := s.tick + 1 }))

/-- Every meaning answers a next state from every state: the block has no instruction that stops it.
Three choices of the model are in it: READ in RX with fewer than nine bytes, which R37 and R132 (d) call no step, is a next
state that changes nothing (log 15); READ_REPLY outside a received frame changes nothing (log 8); an operation that is not the
running one changes nothing in a busy block (log 22). -/
def Obligations.EveryMeaningGoesOn : Prop :=
  ∀ (i : Instr) (s : State), ∃ t, exec i s = .next t

/-- 60_exceptions.md R132: from a state of the invariant a step stops only where the host reads a `PPM` that is not
meaningful (log 11); a `ChRead` that waits and a refused request are next states (log 4 and 15). -/
def Obligations.OnlyTheMeaninglessPpmReadStops : Prop :=
  ∀ s : State, s.Inv →
    (∃ t, step s = .next t) ∨
    (step s = .fault .ppmNotMeaningful ∧ (nextTurn s).1 = .hostReadsPpm ∧ ¬ (s.status = .ok ∧ s.lastOp = some .read))

/-! ## Acceptance, refusal, hold -/

/-- 60_exceptions.md R118, 43_read.md R92: an idle block that holds the handle accepts every command; nothing but the latch,
`STATUS`, `PHASE` and, for READ, `FAILCNT` is written (and the model's own port, last operation and history, log 4, 11, 13). -/
def Obligations.CommandsAreAcceptedWhenOpen : Prop :=
  ∀ (i : Instr) (op : Byte) (arg : U16) (s : State), wireFields i = some (op, arg) → s.phase = .idle → s.opened = true →
    exec i s = .next { s with
      cmdOp := op, cmdArg := arg, status := .none, phase := .tx, failcnt := if i = .read then 0 else s.failcnt,
      req := none, lastOp := some i, history := [] }

/-- 60_exceptions.md R119, 42_open_close.md R86, R88 (the spec's decision, 92 D15): a refused request signals `refused` and
changes no register and neither stream; it is off the port (log 4). -/
def Obligations.RefusedRequestsChangeNothing : Prop :=
  (∀ s : State, s.phase = .idle → s.opened = true → exec .openOp s = .next { s with refused := true, req := none }) ∧
  (∀ s : State, s.phase = .idle → s.opened = false →
    exec .closeOp s = .next { s with refused := true, req := none } ∧
    ∀ i op arg, wireFields i = some (op, arg) → exec i s = .next { s with refused := true, req := none }) ∧
  (∀ (s : State) (a : ChanAnswer) (ts : List Turn) (w : HReq) (e : DecodeError), s.turns = .transceiver a :: ts →
    s.phase = .idle → s.req = some w → decodeRequest w = .error e →
    step s = .next { s.started a ts with refused := true, req := none })

/-- 60_exceptions.md R117, 20_memory.md R45 (the spec's decisions, 92 D21, D24): while the block is busy no step of it takes,
loses or refuses the request presented, and the latch stays (a `refused` event lasts until the block's next step, log 4). -/
def Obligations.RequestsAreHeldWhileBusy : Prop :=
  ∀ (s t : State) (a : ChanAnswer) (ts : List Turn), s.turns = .transceiver a :: ts → s.phase ≠ .idle → step s = .next t →
    t.req = s.req ∧ t.refused = false ∧ t.cmdOp = s.cmdOp ∧ t.cmdArg = s.cmdArg ∧ t.lastOp = s.lastOp

/-- 60_exceptions.md R117: OPEN, CLOSE, and a one-shot command that is not the one the latch holds, change nothing in a busy
block (that the meaning of an operation answers for a busy block at all is log 22). -/
def Obligations.OtherOperationsAreHeld : Prop :=
  (∀ s : State, s.phase ≠ .idle → exec .openOp s = .next s ∧ exec .closeOp s = .next s) ∧
  (∀ (i : Instr) (op : Byte) (arg : U16) (s : State), wireFields i = some (op, arg) →
    (s.phase = .tx → ¬ (s.cmdOp = op ∧ s.cmdArg = arg) → exec i s = .next s) ∧
    (i ≠ .read → s.phase ≠ .idle → s.phase ≠ .tx → exec i s = .next s))

/-! ## OPEN and CLOSE -/

/-- 42_open_close.md R85: OPEN, one step, whichever the channel answers; `OPENED` and `STATUS` are all it writes, and
nothing is sent or read (port, last operation and history: log 4, 11, 13). -/
def Obligations.OpenTakesTheHandle : Prop :=
  ∀ s : State, s.phase = .idle → s.opened = false →
    (s.chan.openOk = true → exec .openOp s = .next { s with
      opened := true, status := .ok, req := none, lastOp := some .openOp, history := [.opened ⟨9600, 8, false, 1⟩ true] }) ∧
    (s.chan.openOk = false → exec .openOp s = .next { s with
      status := .errConn, req := none, lastOp := some .openOp, history := [.opened ⟨9600, 8, false, 1⟩ false] })

/-- 42_open_close.md R87 (the spec's decision, 92 D16): CLOSE, one step; `OPENED` and `STATUS` are all it writes (port, last
operation and history: log 4, 11, 13). -/
def Obligations.CloseGivesTheHandleBack : Prop :=
  ∀ s : State, s.phase = .idle → s.opened = true →
    exec .closeOp s = .next { s with
      opened := false, status := .ok, req := none, lastOp := some .closeOp, history := [.closed] }

/-! ## The phases -/

/-- 43_read.md R91: phase TX of every command: the table's frame is built and written; READ goes on to SETTLE, a one-shot
command is done, a failed write ends either with `IOError` after a prefix of the frame. -/
def Obligations.TxWritesTheCommandsFrame : Prop :=
  ∀ (i : Instr) (f : Frame) (s : State), wireFrame i = some f → s.phase = .tx → wireFields i = some (s.cmdOp, s.cmdArg) →
    (s.chan.writeErr = none → exec i s = .next { s with
      txbuf := f, txStream := s.txStream ++ frameBytes f, history := s.history ++ [.write f true],
      phase := if i = .read then .settle else .idle, status := if i = .read then s.status else .ok }) ∧
    (∀ n, s.chan.writeErr = some n → exec i s = .next { s with
      txbuf := f, txStream := s.txStream ++ (frameBytes f).take n, history := s.history ++ [.write f false],
      phase := .idle, status := .errIo })

/-- 44_oneshot_commands.md R105: a one-shot command, from the idle block to its end, is an acceptance and exactly one write;
the frame is the table's, the block is in TX between the two steps, and nothing else is entered or touched. The bytes of a
failed write are R36's under the spec's decision D20 (log 17), the data bytes of ZERO and ABC the spec's decisions D12 and
D11, and the empty history at acceptance is log 13. -/
def Obligations.OneShotIsOneWrite : Prop :=
  ∀ (s : State) (a b : ChanAnswer) (ts : List Turn) (w : HReq) (i : Instr) (f : Frame),
    s.turns = .transceiver a :: .transceiver b :: ts → s.phase = .idle → s.opened = true → s.req = some w →
    decodeRequest w = .ok i → i ≠ .read → wireFrame i = some f →
    ∃ u t, step s = .next u ∧ u.phase = .tx ∧ u.status = .none ∧ wireFields i = some (u.cmdOp, u.cmdArg) ∧
      u.cmdOp = reqOp w ∧ u.cmdArg = reqArg w ∧ u.history = [] ∧ u.txStream = s.txStream ∧
      step u = .next t ∧ t.phase = .idle ∧ t.txbuf = f ∧ t.history = [.write f (b.writeErr == none)] ∧
      t.status = (if b.writeErr = none then .ok else .errIo) ∧
      (b.writeErr = none → t.txStream = s.txStream ++ frameBytes f) ∧
      (∀ n, b.writeErr = some n → t.txStream = s.txStream ++ (frameBytes f).take n) ∧
      wireFields i = some (t.cmdOp, t.cmdArg) ∧ t.opened = true ∧ t.turns = ts ∧
      t.failcnt = s.failcnt ∧ t.ppm = s.ppm ∧ t.rxbuf = s.rxbuf ∧ t.rxStream = s.rxStream

/-- 43_read.md R95, R100: the two waits change `PHASE` only. -/
def Obligations.WaitsChangeOnlyThePhase : Prop :=
  ∀ s : State,
    (s.phase = .settle → exec .read s = .next { s with phase := .rx, history := s.history ++ [.sleep 100] }) ∧
    (s.phase = .backoff → exec .read s = .next { s with phase := .tx, history := s.history ++ [.sleep 100] })

/-- 43_read.md R93: a read that fails ends READ with `IOError`; `RXBUF` and `FAILCNT` stay; at most eight bytes are gone. -/
def Obligations.ReadFailureEndsTheRead : Prop :=
  ∀ (s : State) (n : Nat), s.phase = .rx → s.chan.readErr = some n →
    exec .read s = .next { s with
      status := .errIo, phase := .idle, rxStream := s.rxStream.drop (min n 8), history := s.history ++ [.readErr] }

/-- 43_read.md R94, R96, R98, R99: the next nine bytes of the stream, wherever they fall, are read and take one of the three
branches. -/
def Obligations.ReadTakesOneOfThreeBranches : Prop :=
  ∀ (s : State) (f : Frame) (rest : List Byte), s.phase = .rx → s.chan.readErr = none →
    s.rxStream = frameBytes f ++ rest →
    (classify f = .corrupt → exec .read s = .next { s with
      rxbuf := f, rxStream := rest, history := s.history ++ [.read f], failcnt := s.failcnt + 1, phase := .drain }) ∧
    (classify f = .irrelevant → exec .read s = .next { s with
      rxbuf := f, rxStream := rest, history := s.history ++ [.read f], phase := .backoff }) ∧
    (∀ p, classify f = .relevant p → exec .read s = .next { s with
      rxbuf := f, rxStream := rest, history := s.history ++ [.read f], failcnt := 0, ppm := p, status := .ok,
      phase := .idle })

/-- 20_memory.md R37, 60_exceptions.md R132 (d): with fewer than nine bytes and no failure the read has no step: nothing
changes (log 15). -/
def Obligations.ReadWaitsForNineBytes : Prop :=
  ∀ s : State, s.phase = .rx → s.chan.readErr = none → s.rxStream.length < 9 → exec .read s = .next s

/-- 43_read.md R93, R94, R96, R98 for the table's READ_REPLY: received in RX, a reply with the right checksum ends READ with
its ppm value, one with another checksum is corrupt; in any other phase the block does not look at it (READ_REPLY as an
instruction: log 8). -/
def Obligations.ReadReplyEndsTheRead : Prop :=
  ∀ (ppm : U16) (d4 d5 d6 d7 cs : Byte) (s : State),
    (s.phase = .rx → (Instr.readReply ppm d4 d5 d6 d7 cs).wellFormed = true →
      exec (.readReply ppm d4 d5 d6 d7 cs) s = .next { s with
        rxbuf := replyFrame ppm d4 d5 d6 d7 cs, rxStream := s.rxStream.drop 9,
        history := s.history ++ [.read (replyFrame ppm d4 d5 d6 d7 cs)],
        failcnt := 0, ppm := ppm, status := .ok, phase := .idle }) ∧
    (s.phase = .rx → (Instr.readReply ppm d4 d5 d6 d7 cs).wellFormed = false →
      exec (.readReply ppm d4 d5 d6 d7 cs) s = .next { s with
        rxbuf := replyFrame ppm d4 d5 d6 d7 cs, rxStream := s.rxStream.drop 9,
        history := s.history ++ [.read (replyFrame ppm d4 d5 d6 d7 cs)],
        failcnt := s.failcnt + 1, phase := .drain }) ∧
    (s.phase ≠ .rx → exec (.readReply ppm d4 d5 d6 d7 cs) s = .next s)

/-- 43_read.md R97, 20_memory.md R38: the drain, of all bytes or of a prefix, comes before the limit test; `FAILCNT` above 8
ends READ with `ChecksumExhausted`, else READ goes on. -/
def Obligations.DrainComesBeforeTheLimit : Prop :=
  ∀ (s : State) (rest : List Byte), s.phase = .drain →
    (s.chan.drainCut = none ∧ rest = [] ∨ ∃ n, s.chan.drainCut = some n ∧ rest = s.rxStream.drop n) →
    (s.failcnt.toNat > 8 → exec .read s = .next { s with
      rxStream := rest, history := s.history ++ [.drain], status := .errCsum, phase := .idle }) ∧
    (s.failcnt.toNat ≤ 8 → exec .read s = .next { s with
      rxStream := rest, history := s.history ++ [.drain], phase := .backoff })

/-! ## Whole-machine rules -/

/-- 43_read.md R90, 10_state.md R11: a step that changes `PHASE` follows a row of the transition table, or is a reset; SETTLE
is entered from TX for READ only. -/
def Obligations.PhasesFollowTheTable : Prop :=
  ∀ s t : State, step s = .next t →
    (t.phase = s.phase ∨ (s.phase, t.phase) ∈ tableRows ∨ ((∃ n, (nextTurn s).1 = .reset n) ∧ t.phase = .idle)) ∧
    (t.phase = .settle → s.phase ≠ .settle → s.phase = .tx ∧ s.cmdOp = 0x86)

/-- 60_exceptions.md R116: where each error kind comes from. -/
def Obligations.ErrorsComeFromTheirSources : Prop :=
  ∀ s t : State, step s = .next t → t.status ≠ s.status →
    (t.status = .errConn → s.phase = .idle ∧ ∃ w a, s.req = some w ∧ decodeRequest w = .ok .openOp ∧
      (nextTurn s).1 = .transceiver a ∧ a.openOk = false) ∧
    (t.status = .errIo → ∃ a, (nextTurn s).1 = .transceiver a ∧
      (s.phase = .tx ∧ a.writeErr ≠ none ∨ s.phase = .rx ∧ a.readErr ≠ none)) ∧
    (t.status = .errCsum → s.phase = .drain ∧ s.failcnt.toNat > 8)

/-- 60_exceptions.md R121 (in part the spec's decision, 92 D17): the step that ends in an error leaves every register but
`STATUS`, `PHASE` and the buffer it was writing, and the handle, as they were. -/
def Obligations.ErrorsKeepTheRegisters : Prop :=
  ∀ s t : State, step s = .next t → t.status ≠ s.status → t.status = .errConn ∨ t.status = .errIo ∨ t.status = .errCsum →
    t.phase = .idle ∧ t.opened = s.opened ∧ t.ppm = s.ppm ∧ t.failcnt = s.failcnt ∧ t.cmdOp = s.cmdOp ∧
    t.cmdArg = s.cmdArg ∧ t.rxbuf = s.rxbuf ∧ (s.phase ≠ .tx → t.txbuf = s.txbuf)

/-- 43_read.md R98, 10_state.md R17: `PPM` changes only in the step that receives a relevant frame, to that frame's value;
reset apart. -/
def Obligations.PpmIsWrittenByAReadingOnly : Prop :=
  ∀ s t : State, step s = .next t → t.ppm ≠ s.ppm →
    (∃ n, (nextTurn s).1 = .reset n) ∨
    (s.phase = .rx ∧ t.status = .ok ∧ classify t.rxbuf = .relevant t.ppm ∧
      ∃ rest, s.rxStream = frameBytes t.rxbuf ++ rest)

/-- 10_state.md R12, 60_exceptions.md R121: `OPENED` changes only by an accepted OPEN or CLOSE, or by reset. -/
def Obligations.TheHandleMovesByOpenAndCloseOnly : Prop :=
  ∀ s t : State, step s = .next t → t.opened ≠ s.opened →
    (∃ n, (nextTurn s).1 = .reset n) ∨
    (s.phase = .idle ∧ t.status = .ok ∧ ∃ w, s.req = some w ∧
      (decodeRequest w = .ok .openOp ∧ t.opened = true ∨ decodeRequest w = .ok .closeOp ∧ t.opened = false))

/-- 20_memory.md R33, R36 to R38, R46: the block appends to TX in phase TX only, at most nine bytes and never taking any
back; it consumes RX from the front, in RX (at most nine bytes) and DRAIN only. -/
def Obligations.StreamsMoveWhereTheTableSays : Prop :=
  ∀ (s t : State) (a : ChanAnswer) (ts : List Turn), s.turns = .transceiver a :: ts → step s = .next t →
    (∃ sent, t.txStream = s.txStream ++ sent ∧ sent.length ≤ 9 ∧ (s.phase ≠ .tx → sent = [])) ∧
    (∃ gone, s.rxStream = gone ++ t.rxStream ∧ (s.phase = .rx → gone.length ≤ 9) ∧
      (s.phase ≠ .rx → s.phase ≠ .drain → gone = []))

/-- 10_state.md R10, R24, R25: a turn of the host, the device or the line leaves every register of the block, and the
history, as it is; only the device and the line touch the streams. That a `refused` event outlasts these turns is the model's choice (log 4), as
is that the line's own moves are on the RX stream only (log 24). -/
def Obligations.OtherAgentsLeaveTheBlock : Prop :=
  ∀ s t : State, step s = .next t → (∀ a, (nextTurn s).1 ≠ .transceiver a) → (∀ n, (nextTurn s).1 ≠ .reset n) →
    t.phase = s.phase ∧ t.opened = s.opened ∧ t.cmdOp = s.cmdOp ∧ t.cmdArg = s.cmdArg ∧ t.txbuf = s.txbuf ∧
    t.rxbuf = s.rxbuf ∧ t.failcnt = s.failcnt ∧ t.ppm = s.ppm ∧ t.status = s.status ∧ t.refused = s.refused ∧
    t.history = s.history ∧ t.lastOp = s.lastOp ∧
    ((∃ w, (nextTurn s).1 = .hostPresents w) ∨ (nextTurn s).1 = .hostReadsPpm →
      t.txStream = s.txStream ∧ t.rxStream = s.rxStream)

/-- 10_state.md R23, 70_reset_and_hazards.md R135, R136 (the spec's decision, 92 D7): a reset puts the registers R23 gives a
value at that value and reports no status. The streams stay as they are but for what the primitive in progress had moved: a
prefix of the frame being written, up to eight bytes being read, or, in DRAIN, any number of bytes from the front, up to all
of them (how many is in the turn, and that a drain is cut so at all, log 10). The kept port is log 2, the `refused` event
log 4, the last operation log 11. -/
def Obligations.ResetAbandonsTheOperation : Prop :=
  ∀ (s t : State) (n : Nat) (ts : List Turn), s.turns = .reset n :: ts → step s = .next t →
    t.phase = .idle ∧ t.opened = false ∧ t.status = .none ∧ t.failcnt = 0 ∧ t.refused = false ∧ t.req = s.req ∧
    t.lastOp = none ∧
    (s.phase ≠ .tx → t.txStream = s.txStream) ∧
    (s.phase = .tx → ∀ f, commandFrame s.cmdOp s.cmdArg = some f → t.txStream = s.txStream ++ (frameBytes f).take n) ∧
    (s.phase ≠ .rx → s.phase ≠ .drain → t.rxStream = s.rxStream) ∧
    (s.phase = .rx → t.rxStream = s.rxStream.drop (min n 8)) ∧
    (s.phase = .drain → t.rxStream = s.rxStream.drop n)

/-- 10_state.md R17, 60_exceptions.md R132 (f): the host gets `PPM` exactly while it is meaningful, changing nothing else,
and in a state of the invariant what it gets is the value of the validated frame in `RXBUF`. -/
def Obligations.HostGetsOnlyValidatedPpm : Prop :=
  ∀ (s : State) (ts : List Turn), s.turns = .hostReadsPpm :: ts →
    (s.status = .ok → s.lastOp = some .read → step s = .next { s with turns := ts, hostPpm := some s.ppm }) ∧
    (¬ (s.status = .ok ∧ s.lastOp = some .read) → step s = .fault .ppmNotMeaningful) ∧
    (s.Inv → s.status = .ok → s.lastOp = some .read → decodeReadReply s.rxbuf = some s.ppm)

/-! ## Invariants -/

/-- Reset satisfies the invariant and the grammar, with the values 10_state.md R23 gives (the spec's decision, 92 D7). -/
def Obligations.ResetIsASafeState : Prop :=
  State.reset.Inv ∧ ReadGrammar State.reset ∧ State.reset.phase = .idle ∧ State.reset.opened = false ∧
  State.reset.status = .none ∧ State.reset.failcnt = 0

/-- Every step keeps the invariant, whatever agent moves. `FAILCNT` is at most 9 in every such state, and at most 8 while a READ
runs in a phase other than DRAIN; after `ChecksumExhausted` it stays at 9 in IDLE and through the one-shot commands after it
(43_read.md R97). -/
def Obligations.EveryStepKeepsTheInvariant : Prop :=
  ∀ s t : State, s.Inv → step s = .next t → t.Inv

/-- 43_read.md R103, R96, R97: every step keeps the channel history of a READ in the grammar, with `FAILCNT` the number of
its corrupt frames. -/
def Obligations.EveryStepKeepsTheReadGrammar : Prop :=
  ∀ s t : State, s.Inv → ReadGrammar s → step s = .next t → ReadGrammar t

/-- 43_read.md R101: the numbers of writes, reads, drains and waits of a READ that ended well, and of one that ended by its
ninth corrupt frame. -/
def Obligations.EndedReadsHaveTheTablesCounts : Prop :=
  ∀ s : State, ReadGrammar s → s.lastOp = some .read → s.phase = .idle →
    ∃ k m : Nat, k = readCount (fun f => classify f = .corrupt) s.history ∧
      m = readCount (fun f => classify f = .irrelevant) s.history ∧
      (s.status = .ok → k ≤ 8 ∧ writeCount s.history = k + m + 1 ∧ readCount (fun _ => true) s.history = k + m + 1 ∧
        drainCount s.history = k ∧ sleepCount s.history = 2 * (k + m) + 1) ∧
      (s.status = .errCsum → k = 9 ∧ writeCount s.history = 9 + m ∧ readCount (fun _ => true) s.history = 9 + m ∧
        drainCount s.history = 9 ∧ sleepCount s.history = 2 * (9 + m) - 1)

/-! ## Whole READs -/

/-- 43_read.md R101, R92, R99: whatever `FAILCNT` held, a READ on a channel that does not fail, to which the device answers
first with frames of which none is relevant and at most eight are corrupt, and then with a relevant frame, ends well with
that frame's value. -/
def Obligations.ReadSucceedsWithinEightCorruptFrames : Prop :=
  ∀ (s : State) (fs : List Frame) (g : Frame) (p : U16) (ts : List Turn),
    s.phase = .idle → s.opened = true → s.rxStream = [] → NoneRelevant fs → corruptCount fs ≤ 8 →
    classify g = .relevant p → s.turns = readTurns fs g 3 ++ ts →
    ∃ t, Host.Core.run Sys2Proof.core (readTurns fs g 3).length s = .next t ∧ t.phase = .idle ∧ t.status = .ok ∧
      t.ppm = p ∧ t.failcnt = 0 ∧ t.rxStream = [] ∧ t.turns = ts ∧ t.lastOp = some .read ∧
      t.history = cyclesEvents fs ++ [wroteRead, waited, .read g]

/-- 43_read.md R101, R97: with eight corrupt frames among those before, a ninth ends the READ with `ChecksumExhausted`,
however many irrelevant frames came between. -/
def Obligations.NinthCorruptFrameExhaustsTheRead : Prop :=
  ∀ (s : State) (fs : List Frame) (g : Frame) (ts : List Turn),
    s.phase = .idle → s.opened = true → s.rxStream = [] → NoneRelevant fs → corruptCount fs = 8 →
    classify g = .corrupt → s.turns = readTurns fs g 4 ++ ts →
    ∃ t, Host.Core.run Sys2Proof.core (readTurns fs g 4).length s = .next t ∧ t.phase = .idle ∧ t.status = .errCsum ∧
      t.ppm = s.ppm ∧ t.failcnt = 9 ∧ t.opened = true ∧ t.turns = ts ∧
      t.history = cyclesEvents fs ++ [wroteRead, waited, .read g, .drain]

/-- 43_read.md R102: a device that answers every cycle with an irrelevant frame keeps a READ going for ever: at no step does
it end, count or report anything. The endless environment is the schedule `again`, the model's own field (log 20). -/
def Obligations.IrrelevantFramesKeepAReadForEver : Prop :=
  ∀ (s : State) (f : Frame), s.phase = .tx → s.cmdOp = 0x86 → s.cmdArg = 0 → s.rxStream = [] → s.turns = [] →
    classify f = .irrelevant → s.again = cycleTurns f →
    ∀ n, ∃ t, Host.Core.run Sys2Proof.core n s = .next t ∧ busy t = true ∧ t.status = s.status ∧
      t.failcnt = s.failcnt ∧ t.ppm = s.ppm
end

