-- ==== Sys2Proof/Laws/Checksum.lean ====
section
/-! SUPPORT. The checksum and the classification, as equations to cite in place of unfolding them. -/

namespace Sys2Proof.Machine

/-- The sum, term by term. -/
theorem frameSum_eq (f : Frame) : frameSum f = f.b1 + f.b2 + f.b3 + f.b4 + f.b5 + f.b6 + f.b7 := by
  simp [frameSum, summedBytes, frameBytes, Config.csumLo, Config.csumHi]

theorem checksum_eq_neg (f : Frame) : checksum f = - frameSum f := by
  simp only [checksum]
  exact (BitVec.neg_eq_not_add _).symm

theorem csumOk_eq_true_iff (f : Frame) : csumOk f = true ↔ checksum f = f.b8 := by
  simp [csumOk]

theorem csumOk_eq_false_iff (f : Frame) : csumOk f = false ↔ checksum f ≠ f.b8 := by
  simp [csumOk]

theorem hdrOk_eq_true_iff (f : Frame) : hdrOk f = true ↔ f.b0 = 0xFF ∧ f.b1 = 0x86 := by
  simp [hdrOk, Config.start, Config.ackRead]

/-- A class is one of three. -/
theorem classify_cases (f : Frame) :
    classify f = .corrupt ∨ classify f = .irrelevant ∨ ∃ p, classify f = .relevant p := by
  cases classify f with
  | corrupt => exact .inl rfl
  | irrelevant => exact .inr (.inl rfl)
  | relevant p => exact .inr (.inr ⟨p, rfl⟩)

end Sys2Proof.Machine
end

