-- ==== Sys2Proof/Laws/Frame.lean ====
section
/-! SUPPORT. Frames and streams: taking a frame off a stream, bytes and offsets, joining and splitting 16-bit fields. -/

namespace Sys2Proof.Machine

@[simp] theorem frameBytes_length (f : Frame) : (frameBytes f).length = 9 := rfl

@[simp] theorem takeFrame_append (f : Frame) (rest : List Byte) :
    takeFrame (frameBytes f ++ rest) = some (f, rest) := rfl

/-- A frame comes off a stream exactly when the stream begins with its bytes. -/
theorem takeFrame_eq_some_iff (bs : List Byte) (f : Frame) (rest : List Byte) :
    takeFrame bs = some (f, rest) ↔ bs = frameBytes f ++ rest := by
  constructor
  · intro h
    unfold takeFrame at h
    split at h
    · cases h; rfl
    · cases h
  · rintro rfl; rfl

/-- No frame comes off a stream exactly when fewer than nine bytes are there. -/
theorem takeFrame_eq_none_iff (bs : List Byte) : takeFrame bs = none ↔ bs.length < 9 := by
  match bs with
  | [] => simp [takeFrame]
  | [_] => simp [takeFrame]
  | [_, _] => simp [takeFrame]
  | [_, _, _] => simp [takeFrame]
  | [_, _, _, _] => simp [takeFrame]
  | [_, _, _, _, _] => simp [takeFrame]
  | [_, _, _, _, _, _] => simp [takeFrame]
  | [_, _, _, _, _, _, _] => simp [takeFrame]
  | [_, _, _, _, _, _, _, _] => simp [takeFrame]
  | _ :: _ :: _ :: _ :: _ :: _ :: _ :: _ :: _ :: rest =>
    simp only [takeFrame, List.length_cons]
    constructor
    · intro h; cases h
    · intro h; omega

@[simp] theorem hiByte_joinBytes (hi lo : Byte) : hiByte (joinBytes hi lo) = hi :=
  BitVec.extractLsb'_append_eq_left

@[simp] theorem loByte_joinBytes (hi lo : Byte) : loByte (joinBytes hi lo) = lo :=
  BitVec.extractLsb'_append_eq_right

@[simp] theorem joinBytes_hiByte_loByte (v : U16) : joinBytes (hiByte v) (loByte v) = v :=
  (BitVec.extractLsb'_append_extractLsb'_eq_extractLsb' rfl).trans BitVec.extractLsb'_eq_self

end Sys2Proof.Machine
end

