-- ==== Sys2Proof/Laws/Decode.lean ====
section
/-! SUPPORT. The fields of request words, and what the command decoder accepts. -/

namespace Sys2Proof

@[simp] theorem reqKind_makeReq (kind : BitVec 2) (op : Byte) (arg : U16) : reqKind (makeReq kind op arg) = kind :=
  (BitVec.extractLsb'_append_eq_of_le (v := 2 + 8) (w := 16) (by decide)).trans
    (BitVec.extractLsb'_append_eq_left (w := 2) (w' := 8))

@[simp] theorem reqOp_makeReq (kind : BitVec 2) (op : Byte) (arg : U16) : reqOp (makeReq kind op arg) = op :=
  (BitVec.extractLsb'_append_eq_of_le (v := 2 + 8) (w := 16) (by decide)).trans
    (BitVec.extractLsb'_append_eq_right (w := 2) (w' := 8))

@[simp] theorem reqArg_makeReq (kind : BitVec 2) (op : Byte) (arg : U16) : reqArg (makeReq kind op arg) = arg :=
  BitVec.extractLsb'_append_eq_right (w := 2 + 8) (w' := 16)

/-- The command decoder accepts exactly the fields the encoder writes. -/
theorem decodeCommand_eq_ok_iff (op : Byte) (arg : U16) (i : Instr) :
    decodeCommand op arg = .ok i ↔ commandFields i = some (op, arg) := by
  constructor
  · intro h
    unfold decodeCommand at h
    repeat' split at h
    all_goals cases h
    all_goals subst_vars
    all_goals rfl
  · intro h
    cases i with
    | openOp => cases h
    | closeOp => cases h
    | read => cases h; rfl
    | zero => cases h; rfl
    | span target => cases h; rfl
    | abc enabled => cases h; cases enabled <;> rfl
    | range2000 => cases h; rfl
    | range5000 => cases h; rfl
    | readReply ppm d4 d5 d6 d7 cs => cases h

/-- The latch holds the command whose fields it has. -/
theorem latched_eq_some_iff (s : Machine.State) (i : Instr) :
    Machine.latched s = some i ↔ commandFields i = some (s.cmdOp, s.cmdArg) := by
  rw [← decodeCommand_eq_ok_iff, Machine.latched]
  cases decodeCommand s.cmdOp s.cmdArg with
  | ok j => simp [Except.toOption]
  | error e => simp [Except.toOption]

end Sys2Proof
end

