-- ==== Sys2Proof/Laws/State.lean ====
section
/-! SUPPORT. What each update of the state writes and what it leaves, field by field: one lemma an update, for simp. -/

namespace Sys2Proof.Machine

@[simp] theorem raise_fields (e : ErrorKind) (s : State) :
    (raise e s).phase = .idle ∧ (raise e s).opened = s.opened ∧ (raise e s).cmdOp = s.cmdOp ∧
    (raise e s).cmdArg = s.cmdArg ∧ (raise e s).txbuf = s.txbuf ∧ (raise e s).rxbuf = s.rxbuf ∧
    (raise e s).failcnt = s.failcnt ∧ (raise e s).ppm = s.ppm ∧ (raise e s).status = errorStatus e ∧
    (raise e s).req = s.req ∧ (raise e s).refused = s.refused ∧ (raise e s).txStream = s.txStream ∧
    (raise e s).rxStream = s.rxStream ∧ (raise e s).history = s.history ∧ (raise e s).lastOp = s.lastOp ∧
    (raise e s).chan = s.chan ∧ (raise e s).turns = s.turns ∧ (raise e s).again = s.again ∧
    (raise e s).tick = s.tick ∧ (raise e s).hostPpm = s.hostPpm :=
  ⟨rfl, rfl, rfl, rfl, rfl, rfl, rfl, rfl, rfl, rfl, rfl, rfl, rfl, rfl, rfl, rfl, rfl, rfl, rfl, rfl⟩

@[simp] theorem endOk_fields (s : State) :
    (endOk s).phase = .idle ∧ (endOk s).opened = s.opened ∧ (endOk s).cmdOp = s.cmdOp ∧
    (endOk s).cmdArg = s.cmdArg ∧ (endOk s).txbuf = s.txbuf ∧ (endOk s).rxbuf = s.rxbuf ∧
    (endOk s).failcnt = s.failcnt ∧ (endOk s).ppm = s.ppm ∧ (endOk s).status = .ok ∧ (endOk s).req = s.req ∧
    (endOk s).refused = s.refused ∧ (endOk s).txStream = s.txStream ∧ (endOk s).rxStream = s.rxStream ∧
    (endOk s).history = s.history ∧ (endOk s).lastOp = s.lastOp ∧ (endOk s).chan = s.chan ∧
    (endOk s).turns = s.turns ∧ (endOk s).again = s.again ∧ (endOk s).tick = s.tick ∧
    (endOk s).hostPpm = s.hostPpm :=
  ⟨rfl, rfl, rfl, rfl, rfl, rfl, rfl, rfl, rfl, rfl, rfl, rfl, rfl, rfl, rfl, rfl, rfl, rfl, rfl, rfl⟩

@[simp] theorem acceptRequest_fields (i : Instr) (s : State) :
    (acceptRequest i s).phase = s.phase ∧ (acceptRequest i s).opened = s.opened ∧
    (acceptRequest i s).cmdOp = s.cmdOp ∧ (acceptRequest i s).cmdArg = s.cmdArg ∧
    (acceptRequest i s).txbuf = s.txbuf ∧ (acceptRequest i s).rxbuf = s.rxbuf ∧
    (acceptRequest i s).failcnt = s.failcnt ∧ (acceptRequest i s).ppm = s.ppm ∧
    (acceptRequest i s).status = .none ∧ (acceptRequest i s).req = none ∧ (acceptRequest i s).refused = s.refused ∧
    (acceptRequest i s).txStream = s.txStream ∧ (acceptRequest i s).rxStream = s.rxStream ∧
    (acceptRequest i s).history = [] ∧ (acceptRequest i s).lastOp = some i ∧ (acceptRequest i s).chan = s.chan ∧
    (acceptRequest i s).turns = s.turns ∧ (acceptRequest i s).again = s.again ∧ (acceptRequest i s).tick = s.tick ∧
    (acceptRequest i s).hostPpm = s.hostPpm :=
  ⟨rfl, rfl, rfl, rfl, rfl, rfl, rfl, rfl, rfl, rfl, rfl, rfl, rfl, rfl, rfl, rfl, rfl, rfl, rfl, rfl⟩

@[simp] theorem acceptCommand_fields (i : Instr) (op : Byte) (arg : U16) (s : State) :
    (acceptCommand i op arg s).phase = .tx ∧ (acceptCommand i op arg s).opened = s.opened ∧
    (acceptCommand i op arg s).cmdOp = op ∧ (acceptCommand i op arg s).cmdArg = arg ∧
    (acceptCommand i op arg s).txbuf = s.txbuf ∧ (acceptCommand i op arg s).rxbuf = s.rxbuf ∧
    (acceptCommand i op arg s).failcnt = s.failcnt ∧ (acceptCommand i op arg s).ppm = s.ppm ∧
    (acceptCommand i op arg s).status = .none ∧ (acceptCommand i op arg s).req = none ∧
    (acceptCommand i op arg s).refused = s.refused ∧ (acceptCommand i op arg s).txStream = s.txStream ∧
    (acceptCommand i op arg s).rxStream = s.rxStream ∧ (acceptCommand i op arg s).history = [] ∧
    (acceptCommand i op arg s).lastOp = some i ∧ (acceptCommand i op arg s).chan = s.chan ∧
    (acceptCommand i op arg s).turns = s.turns ∧ (acceptCommand i op arg s).again = s.again ∧
    (acceptCommand i op arg s).tick = s.tick ∧ (acceptCommand i op arg s).hostPpm = s.hostPpm :=
  ⟨rfl, rfl, rfl, rfl, rfl, rfl, rfl, rfl, rfl, rfl, rfl, rfl, rfl, rfl, rfl, rfl, rfl, rfl, rfl, rfl⟩

@[simp] theorem refuseRequest_fields (s : State) :
    (refuseRequest s).phase = s.phase ∧ (refuseRequest s).opened = s.opened ∧ (refuseRequest s).cmdOp = s.cmdOp ∧
    (refuseRequest s).cmdArg = s.cmdArg ∧ (refuseRequest s).txbuf = s.txbuf ∧ (refuseRequest s).rxbuf = s.rxbuf ∧
    (refuseRequest s).failcnt = s.failcnt ∧ (refuseRequest s).ppm = s.ppm ∧ (refuseRequest s).status = s.status ∧
    (refuseRequest s).req = none ∧ (refuseRequest s).refused = true ∧ (refuseRequest s).txStream = s.txStream ∧
    (refuseRequest s).rxStream = s.rxStream ∧ (refuseRequest s).history = s.history ∧
    (refuseRequest s).lastOp = s.lastOp ∧ (refuseRequest s).chan = s.chan ∧ (refuseRequest s).turns = s.turns ∧
    (refuseRequest s).again = s.again ∧ (refuseRequest s).tick = s.tick ∧ (refuseRequest s).hostPpm = s.hostPpm :=
  ⟨rfl, rfl, rfl, rfl, rfl, rfl, rfl, rfl, rfl, rfl, rfl, rfl, rfl, rfl, rfl, rfl, rfl, rfl, rfl, rfl⟩

@[simp] theorem chClose_fields (s : State) :
    (chClose s).phase = s.phase ∧ (chClose s).opened = s.opened ∧ (chClose s).cmdOp = s.cmdOp ∧
    (chClose s).cmdArg = s.cmdArg ∧ (chClose s).txbuf = s.txbuf ∧ (chClose s).rxbuf = s.rxbuf ∧
    (chClose s).failcnt = s.failcnt ∧ (chClose s).ppm = s.ppm ∧ (chClose s).status = s.status ∧
    (chClose s).req = s.req ∧ (chClose s).refused = s.refused ∧ (chClose s).txStream = s.txStream ∧
    (chClose s).rxStream = s.rxStream ∧ (chClose s).history = s.history ++ [.closed] ∧
    (chClose s).lastOp = s.lastOp ∧ (chClose s).chan = s.chan ∧ (chClose s).turns = s.turns ∧
    (chClose s).again = s.again ∧ (chClose s).tick = s.tick ∧ (chClose s).hostPpm = s.hostPpm :=
  ⟨rfl, rfl, rfl, rfl, rfl, rfl, rfl, rfl, rfl, rfl, rfl, rfl, rfl, rfl, rfl, rfl, rfl, rfl, rfl, rfl⟩

@[simp] theorem consumeFrame_fields (f : Frame) (s : State) :
    (consumeFrame f s).phase = s.phase ∧ (consumeFrame f s).opened = s.opened ∧
    (consumeFrame f s).cmdOp = s.cmdOp ∧ (consumeFrame f s).cmdArg = s.cmdArg ∧
    (consumeFrame f s).txbuf = s.txbuf ∧ (consumeFrame f s).rxbuf = s.rxbuf ∧
    (consumeFrame f s).failcnt = s.failcnt ∧ (consumeFrame f s).ppm = s.ppm ∧
    (consumeFrame f s).status = s.status ∧ (consumeFrame f s).req = s.req ∧
    (consumeFrame f s).refused = s.refused ∧ (consumeFrame f s).txStream = s.txStream ∧
    (consumeFrame f s).rxStream = s.rxStream.drop 9 ∧ (consumeFrame f s).history = s.history ++ [.read f] ∧
    (consumeFrame f s).lastOp = s.lastOp ∧ (consumeFrame f s).chan = s.chan ∧ (consumeFrame f s).turns = s.turns ∧
    (consumeFrame f s).again = s.again ∧ (consumeFrame f s).tick = s.tick ∧
    (consumeFrame f s).hostPpm = s.hostPpm :=
  ⟨rfl, rfl, rfl, rfl, rfl, rfl, rfl, rfl, rfl, rfl, rfl, rfl, rfl, rfl, rfl, rfl, rfl, rfl, rfl, rfl⟩

@[simp] theorem chSleep_fields (s : State) :
    (chSleep s).phase = s.phase ∧ (chSleep s).opened = s.opened ∧ (chSleep s).cmdOp = s.cmdOp ∧
    (chSleep s).cmdArg = s.cmdArg ∧ (chSleep s).txbuf = s.txbuf ∧ (chSleep s).rxbuf = s.rxbuf ∧
    (chSleep s).failcnt = s.failcnt ∧ (chSleep s).ppm = s.ppm ∧ (chSleep s).status = s.status ∧
    (chSleep s).req = s.req ∧ (chSleep s).refused = s.refused ∧ (chSleep s).txStream = s.txStream ∧
    (chSleep s).rxStream = s.rxStream ∧ (chSleep s).history = s.history ++ [.sleep 100] ∧
    (chSleep s).lastOp = s.lastOp ∧ (chSleep s).chan = s.chan ∧ (chSleep s).turns = s.turns ∧
    (chSleep s).again = s.again ∧ (chSleep s).tick = s.tick ∧ (chSleep s).hostPpm = s.hostPpm :=
  ⟨rfl, rfl, rfl, rfl, rfl, rfl, rfl, rfl, rfl, rfl, rfl, rfl, rfl, rfl, rfl, rfl, rfl, rfl, rfl, rfl⟩

@[simp] theorem settleStep_fields (s : State) :
    (settleStep s).phase = .rx ∧ (settleStep s).opened = s.opened ∧ (settleStep s).cmdOp = s.cmdOp ∧
    (settleStep s).cmdArg = s.cmdArg ∧ (settleStep s).txbuf = s.txbuf ∧ (settleStep s).rxbuf = s.rxbuf ∧
    (settleStep s).failcnt = s.failcnt ∧ (settleStep s).ppm = s.ppm ∧ (settleStep s).status = s.status ∧
    (settleStep s).req = s.req ∧ (settleStep s).refused = s.refused ∧ (settleStep s).txStream = s.txStream ∧
    (settleStep s).rxStream = s.rxStream ∧ (settleStep s).history = s.history ++ [.sleep 100] ∧
    (settleStep s).lastOp = s.lastOp ∧ (settleStep s).chan = s.chan ∧ (settleStep s).turns = s.turns ∧
    (settleStep s).again = s.again ∧ (settleStep s).tick = s.tick ∧ (settleStep s).hostPpm = s.hostPpm :=
  ⟨rfl, rfl, rfl, rfl, rfl, rfl, rfl, rfl, rfl, rfl, rfl, rfl, rfl, rfl, rfl, rfl, rfl, rfl, rfl, rfl⟩

@[simp] theorem backoffStep_fields (s : State) :
    (backoffStep s).phase = .tx ∧ (backoffStep s).opened = s.opened ∧ (backoffStep s).cmdOp = s.cmdOp ∧
    (backoffStep s).cmdArg = s.cmdArg ∧ (backoffStep s).txbuf = s.txbuf ∧ (backoffStep s).rxbuf = s.rxbuf ∧
    (backoffStep s).failcnt = s.failcnt ∧ (backoffStep s).ppm = s.ppm ∧ (backoffStep s).status = s.status ∧
    (backoffStep s).req = s.req ∧ (backoffStep s).refused = s.refused ∧ (backoffStep s).txStream = s.txStream ∧
    (backoffStep s).rxStream = s.rxStream ∧ (backoffStep s).history = s.history ++ [.sleep 100] ∧
    (backoffStep s).lastOp = s.lastOp ∧ (backoffStep s).chan = s.chan ∧ (backoffStep s).turns = s.turns ∧
    (backoffStep s).again = s.again ∧ (backoffStep s).tick = s.tick ∧ (backoffStep s).hostPpm = s.hostPpm :=
  ⟨rfl, rfl, rfl, rfl, rfl, rfl, rfl, rfl, rfl, rfl, rfl, rfl, rfl, rfl, rfl, rfl, rfl, rfl, rfl, rfl⟩

@[simp] theorem beginStep_fields (a : ChanAnswer) (s : State) :
    (beginStep a s).phase = s.phase ∧ (beginStep a s).opened = s.opened ∧ (beginStep a s).cmdOp = s.cmdOp ∧
    (beginStep a s).cmdArg = s.cmdArg ∧ (beginStep a s).txbuf = s.txbuf ∧ (beginStep a s).rxbuf = s.rxbuf ∧
    (beginStep a s).failcnt = s.failcnt ∧ (beginStep a s).ppm = s.ppm ∧ (beginStep a s).status = s.status ∧
    (beginStep a s).req = s.req ∧ (beginStep a s).refused = false ∧ (beginStep a s).txStream = s.txStream ∧
    (beginStep a s).rxStream = s.rxStream ∧ (beginStep a s).history = s.history ∧
    (beginStep a s).lastOp = s.lastOp ∧ (beginStep a s).chan = a ∧ (beginStep a s).turns = s.turns ∧
    (beginStep a s).again = s.again ∧ (beginStep a s).tick = s.tick ∧ (beginStep a s).hostPpm = s.hostPpm :=
  ⟨rfl, rfl, rfl, rfl, rfl, rfl, rfl, rfl, rfl, rfl, rfl, rfl, rfl, rfl, rfl, rfl, rfl, rfl, rfl, rfl⟩

end Sys2Proof.Machine
end

