-- ==== Sys2Proof/Laws/Ops.lean ====
section
/-! SUPPORT. The shared operations: everything each of them can do, one lemma an operation. -/

namespace Sys2Proof.Machine

/-- Whatever `ChWrite` answers, the block's registers stay and TX gains a prefix of the frame. -/
theorem chWrite_cases (f : Frame) (s : State) :
    (s.chan.writeErr = none ∧ chWrite f s = (true, { s with
      txStream := s.txStream ++ frameBytes f, history := s.history ++ [.write f true] })) ∨
    (∃ n, s.chan.writeErr = some n ∧ chWrite f s = (false, { s with
      txStream := s.txStream ++ (frameBytes f).take n, history := s.history ++ [.write f false] })) := by
  unfold chWrite
  cases h : s.chan.writeErr with
  | none => exact .inl ⟨rfl, rfl⟩
  | some n => exact .inr ⟨n, rfl, rfl⟩

/-- `ChRead` returns the nine bytes at the front, fails, or has no step. -/
theorem chRead_cases (s : State) :
    (∃ n, s.chan.readErr = some n ∧ chRead s = .ioErr { s with
      rxStream := s.rxStream.drop (min n 8), history := s.history ++ [.readErr] }) ∨
    (s.chan.readErr = none ∧ ∃ f rest, s.rxStream = frameBytes f ++ rest ∧ chRead s = .frame f { s with
      rxStream := rest, history := s.history ++ [.read f] }) ∨
    (s.chan.readErr = none ∧ s.rxStream.length < 9 ∧ chRead s = .blocked) := by
  unfold chRead
  cases h : s.chan.readErr with
  | some n => exact .inl ⟨n, rfl, rfl⟩
  | none =>
    cases h2 : takeFrame s.rxStream with
    | none => exact .inr (.inr ⟨rfl, (takeFrame_eq_none_iff _).1 h2, rfl⟩)
    | some x =>
      obtain ⟨f, rest⟩ := x
      have h3 := (takeFrame_eq_some_iff _ _ _).1 h2
      refine .inr (.inl ⟨rfl, f, rest, h3, ?_⟩)
      simp only [consumeFrame, h3, Config.frameLen]
      rfl

/-- A latch that holds a command has a frame to send. -/
theorem commandFrame_isSome_of_latched {s : State} {i : Instr} (h : latched s = some i) :
    ∃ f, commandFrame s.cmdOp s.cmdArg = some f := by
  have hd := (decodeCommand_eq_ok_iff s.cmdOp s.cmdArg i).2 ((latched_eq_some_iff s i).1 h)
  have hf := (latched_eq_some_iff s i).1 h
  simp only [commandFrame, operands, hd]
  cases i <;> first | exact ⟨_, rfl⟩ | cases hf

/-- Phase TX: the frame of the latch is written; READ goes on, a one-shot command is done, a failed write is an
`IOError`. -/
theorem txStep_cases (s : State) :
    (commandFrame s.cmdOp s.cmdArg = none ∧ txStep s = .fault .latchNotACommand) ∨
    (∃ f, commandFrame s.cmdOp s.cmdArg = some f ∧
      ((s.chan.writeErr = none ∧ s.cmdOp = Config.opRead ∧ txStep s = .next { s with
          txbuf := f, txStream := s.txStream ++ frameBytes f, history := s.history ++ [.write f true],
          phase := .settle }) ∨
        (s.chan.writeErr = none ∧ s.cmdOp ≠ Config.opRead ∧ txStep s = .next { s with
          txbuf := f, txStream := s.txStream ++ frameBytes f, history := s.history ++ [.write f true],
          phase := .idle, status := .ok }) ∨
        (∃ n, s.chan.writeErr = some n ∧ txStep s = .next { s with
          txbuf := f, txStream := s.txStream ++ (frameBytes f).take n, history := s.history ++ [.write f false],
          phase := .idle, status := .errIo }))) := by
  unfold txStep
  cases hf : commandFrame s.cmdOp s.cmdArg with
  | none => exact .inl ⟨rfl, rfl⟩
  | some f =>
    refine .inr ⟨f, rfl, ?_⟩
    cases hw : s.chan.writeErr with
    | none =>
      by_cases hr : s.cmdOp = Config.opRead
      · exact .inl ⟨rfl, hr, by simp [chWrite, hw, hr]⟩
      · exact .inr (.inl ⟨rfl, hr, by simp [chWrite, hw, hr, endOk]⟩)
    | some n => exact .inr (.inr ⟨n, rfl, by simp [chWrite, hw, raise, errorStatus]⟩)

/-- The validation takes one of three branches. -/
theorem receiveFrame_cases (f : Frame) (s : State) :
    (classify f = .corrupt ∧ receiveFrame f s = { s with rxbuf := f, failcnt := s.failcnt + 1, phase := .drain }) ∨
    (classify f = .irrelevant ∧ receiveFrame f s = { s with rxbuf := f, phase := .backoff }) ∨
    (∃ p, classify f = .relevant p ∧
      receiveFrame f s = { s with rxbuf := f, failcnt := 0, ppm := p, status := .ok, phase := .idle }) := by
  simp only [receiveFrame]
  cases h : classify f with
  | corrupt => exact .inl ⟨rfl, rfl⟩
  | irrelevant => exact .inr (.inl ⟨rfl, rfl⟩)
  | relevant p => exact .inr (.inr ⟨p, rfl, rfl⟩)

/-- Phase RX: failure, no step, or a frame and its branch. -/
theorem rxStep_cases (s : State) :
    (∃ n, s.chan.readErr = some n ∧ rxStep s = { s with
      rxStream := s.rxStream.drop (min n 8), history := s.history ++ [.readErr], status := .errIo, phase := .idle }) ∨
    (s.chan.readErr = none ∧ s.rxStream.length < 9 ∧ rxStep s = s) ∨
    (s.chan.readErr = none ∧ ∃ f rest, s.rxStream = frameBytes f ++ rest ∧
      rxStep s = receiveFrame f { s with rxStream := rest, history := s.history ++ [.read f] }) := by
  unfold rxStep
  rcases chRead_cases s with ⟨n, hn, h⟩ | ⟨hn, f, rest, hr, h⟩ | ⟨hn, hl, h⟩
  · rw [h]; exact .inl ⟨n, hn, rfl⟩
  · rw [h]; exact .inr (.inr ⟨hn, f, rest, hr, rfl⟩)
  · rw [h]; exact .inr (.inl ⟨hn, hl, rfl⟩)

/-- Phase DRAIN: some front part of the RX stream goes, then the limit decides. -/
theorem drainStep_cases (s : State) :
    ∃ rest gone, s.rxStream = gone ++ rest ∧
      rest = (match s.chan.drainCut with | none => [] | some n => s.rxStream.drop n) ∧
      ((s.failcnt.toNat > 8 ∧ drainStep s = { s with
          rxStream := rest, history := s.history ++ [.drain], status := .errCsum, phase := .idle }) ∨
        (s.failcnt.toNat ≤ 8 ∧ drainStep s = { s with
          rxStream := rest, history := s.history ++ [.drain], phase := .backoff })) := by
  have hsplit : ∃ gone, s.rxStream = gone ++ (match s.chan.drainCut with | none => [] | some n => s.rxStream.drop n) := by
    cases s.chan.drainCut with
    | none => exact ⟨s.rxStream, by simp⟩
    | some n => exact ⟨s.rxStream.take n, by simp⟩
  obtain ⟨gone, hg⟩ := hsplit
  refine ⟨_, gone, hg, rfl, ?_⟩
  by_cases hc : s.failcnt.toNat > 8
  · exact .inl ⟨hc, if_pos (decide_eq_true hc)⟩
  · exact .inr ⟨by omega, if_neg fun h => hc (of_decide_eq_true h)⟩

end Sys2Proof.Machine
end

