-- ==== Sys2Proof/Laws/PerInstr.lean ====
section
/-! SUPPORT. Laws stated of every instruction, one lemma a constructor. Family TableRow: the encoding of an instruction fits
its row's match and mask in spec/opcode_table.json. -/

namespace Sys2Proof.Laws.TableRow

/-- The bits of a word under a row's mask are the row's match. -/
def Fits (e : Encoded) (mask value : Nat) : Prop :=
  match e with
  | .request w => w &&& BitVec.ofNat 26 mask = BitVec.ofNat 26 value
  | .frame f => Machine.frameToNum f &&& BitVec.ofNat 72 mask = BitVec.ofNat 72 value

/-- The row of each instruction, as the table spells its mask and match. -/
def Statement (i : Instr) : Prop :=
  match i with
  | .openOp => Fits (encode .openOp) 0x3000000 0x1000000
  | .closeOp => Fits (encode .closeOp) 0x3000000 0x2000000
  | .read => Fits (encode .read) 0x3FFFFFF 0x0860000
  | .zero => Fits (encode .zero) 0x3FFFFFF 0x0870000
  | .span target => Fits (encode (.span target)) 0x3FF0000 0x0880000
  | .abc enabled => Fits (encode (.abc enabled)) 0x3FFFFFE 0x0790000
  | .range2000 => Fits (encode .range2000) 0x3FFFFFF 0x09907D0
  | .range5000 => Fits (encode .range5000) 0x3FFFFFF 0x0991388
  | .readReply ppm d4 d5 d6 d7 cs =>
    Fits (encode (.readReply ppm d4 d5 d6 d7 cs)) 0xFFFF00000000000000 0xFF8600000000000000

theorem openOp : Statement .openOp := by simp only [Statement, Fits, encode]; decide
theorem closeOp : Statement .closeOp := by simp only [Statement, Fits, encode]; decide
theorem read : Statement .read := by simp only [Statement, Fits, encode]; decide
theorem zero : Statement .zero := by simp only [Statement, Fits, encode]; decide
theorem range2000 : Statement .range2000 := by simp only [Statement, Fits, encode]; decide
theorem range5000 : Statement .range5000 := by simp only [Statement, Fits, encode]; decide

theorem abc (enabled : Bool) : Statement (.abc enabled) := by
  simp only [Statement, Fits, encode]
  cases enabled <;> decide

/-- Under a mask with zeros in its low part, the low part of a word does not count. -/
theorem append_and_zeros {n m : Nat} (x a : BitVec n) (y : BitVec m) :
    (x ++ y) &&& (a ++ 0#m) = (x &&& a) ++ 0#m := by
  rw [BitVec.and_append, BitVec.and_zero]

theorem span (target : U16) : Statement (.span target) := by
  have hm : BitVec.ofNat 26 0x3FF0000 = ((0x3FF : BitVec 10) ++ 0#16 : BitVec (10 + 16)) := by decide
  have hv : BitVec.ofNat 26 0x0880000 = ((0#2 ++ Config.opSpan : BitVec 10) ++ 0#16 : BitVec (10 + 16)) := by decide
  have hx : ((0#2 ++ Config.opSpan : BitVec 10)) &&& 0x3FF = (0#2 ++ Config.opSpan : BitVec 10) := by decide
  simp only [Statement, Fits, encode]
  rw [hm, hv]
  exact (append_and_zeros (0#2 ++ Config.opSpan : BitVec 10) 0x3FF target).trans (by rw [hx])

theorem readReply (ppm : U16) (d4 d5 d6 d7 cs : Byte) : Statement (.readReply ppm d4 d5 d6 d7 cs) := by
  let head : BitVec 16 := Config.start ++ Config.ackRead
  have hm : BitVec.ofNat 72 0xFFFF00000000000000 = ((((((((0xFFFF#16 ++ 0#8 : BitVec 24) ++ 0#8 : BitVec 32) ++ 0#8 :
      BitVec 40) ++ 0#8 : BitVec 48) ++ 0#8 : BitVec 56) ++ 0#8 : BitVec 64) ++ 0#8 : BitVec (64 + 8))) := by decide
  have hv : BitVec.ofNat 72 0xFF8600000000000000 = ((((((((head ++ 0#8 : BitVec 24) ++ 0#8 : BitVec 32) ++ 0#8 :
      BitVec 40) ++ 0#8 : BitVec 48) ++ 0#8 : BitVec 56) ++ 0#8 : BitVec 64) ++ 0#8 : BitVec (64 + 8))) := by decide
  have hx : head &&& 0xFFFF#16 = head := by decide
  simp only [Statement, Fits, encode]
  rw [hm, hv]
  refine (append_and_zeros (n := 64) _ _ _).trans (congrArg (· ++ 0#8) ?_)
  refine (append_and_zeros (n := 56) _ _ _).trans (congrArg (· ++ 0#8) ?_)
  refine (append_and_zeros (n := 48) _ _ _).trans (congrArg (· ++ 0#8) ?_)
  refine (append_and_zeros (n := 40) _ _ _).trans (congrArg (· ++ 0#8) ?_)
  refine (append_and_zeros (n := 32) _ _ _).trans (congrArg (· ++ 0#8) ?_)
  refine (append_and_zeros (n := 24) _ _ _).trans (congrArg (· ++ 0#8) ?_)
  exact (append_and_zeros (n := 16) _ _ _).trans (congrArg (· ++ 0#8) hx)

end Sys2Proof.Laws.TableRow
end

