-- ==== Sys2Proof/Laws/Step.lean ====
section
/-! SUPPORT. Everything one step can do: the rows a step of the block can take, and the turns of the other agents. -/

namespace Sys2Proof.Machine

/-- The fields of a command stand for an instruction other than OPEN and CLOSE, and its meaning in IDLE is acceptance or
refusal. -/
theorem exec_command_idle {i : Instr} {op : Byte} {arg : U16} (h : commandFields i = some (op, arg)) (s : State)
    (hp : s.phase = .idle) :
    exec i s = .next (if s.opened then
      { acceptCommand i op arg s with failcnt := if i = .read then 0 else s.failcnt } else refuseRequest s) := by
  cases i <;> cases h
  all_goals
    simp [exec, execRead, execZero, execSpan, execAbc, execRange2000, execRange5000, oneShot, hp]
  all_goals rfl

/-- In TX the command the latch holds takes the step of TX. -/
theorem exec_command_tx {i : Instr} {s : State} (h : latched s = some i) (hp : s.phase = .tx) :
    exec i s = txStep s := by
  have hf := (latched_eq_some_iff s i).1 h
  have h12 : ∀ op arg, commandFields i = some (op, arg) → s.cmdOp = op ∧ s.cmdArg = arg := by
    intro op arg h; rw [hf] at h; cases h; exact ⟨rfl, rfl⟩
  cases i with
  | openOp => cases hf
  | closeOp => cases hf
  | readReply => cases hf
  | read => obtain ⟨h1, h2⟩ := h12 _ _ rfl; simp [exec, execRead, hp, h1, h2]
  | zero => obtain ⟨h1, h2⟩ := h12 _ _ rfl; simp [exec, execZero, oneShot, hp, h1, h2]
  | span => obtain ⟨h1, h2⟩ := h12 _ _ rfl; simp [exec, execSpan, oneShot, hp, h1, h2]
  | abc => obtain ⟨h1, h2⟩ := h12 _ _ rfl; simp [exec, execAbc, oneShot, hp, h1, h2]
  | range2000 => obtain ⟨h1, h2⟩ := h12 _ _ rfl; simp [exec, execRange2000, oneShot, hp, h1, h2]
  | range5000 => obtain ⟨h1, h2⟩ := h12 _ _ rfl; simp [exec, execRange5000, oneShot, hp, h1, h2]

/-- The term a frame decodes to stands for that frame. -/
theorem replyFrame_of_decodeReply {f : Frame} {i : Instr} (h : decodeReply f = .ok i) :
    i = .readReply (joinBytes f.b2 f.b3) f.b4 f.b5 f.b6 f.b7 f.b8 ∧
      replyFrame (joinBytes f.b2 f.b3) f.b4 f.b5 f.b6 f.b7 f.b8 = f := by
  unfold decodeReply at h
  split at h
  · rename_i hh
    cases h
    refine ⟨rfl, ?_⟩
    simp [replyFrame, ← hh.1, ← hh.2]
  · cases h

/-- In RX, the READ_REPLY at the front of the stream does what READ's step of RX does. -/
theorem exec_reply_rx {s t : State} {f : Frame} {i : Instr} (hp : s.phase = .rx) (hr : chRead s = .frame f t)
    (hd : decodeReply f = .ok i) : exec i s = .next (rxStep s) := by
  obtain ⟨rfl, hf⟩ := replyFrame_of_decodeReply hd
  have ht : t = consumeFrame f s := by
    unfold chRead at hr
    split at hr
    · cases hr
    · split at hr
      · cases hr; rfl
      · cases hr
  simp only [exec, execReadReply, rxStep, hp, hr, hf, ht, if_true]

/-- The rows a step of the block can take (43_read.md R90, 42_open_close.md, 60_exceptions.md R117 to R119). -/
inductive BlockMove (s : State) : State → Prop where
  | waiting (hp : s.phase = .idle) (hr : s.req = none) : BlockMove s s
  | refused (w : HReq) (hp : s.phase = .idle) (hr : s.req = some w) : BlockMove s (refuseRequest s)
  | accepted (w : HReq) (i : Instr) (op : Byte) (arg : U16) (hp : s.phase = .idle) (hr : s.req = some w)
      (hd : decodeRequest w = .ok i) (ho : s.opened = true) (hf : commandFields i = some (op, arg)) :
      BlockMove s { acceptCommand i op arg s with failcnt := if i = .read then 0 else s.failcnt }
  | openOk (w : HReq) (hp : s.phase = .idle) (hr : s.req = some w) (hd : decodeRequest w = .ok .openOp)
      (ho : s.opened = false) (ha : s.chan.openOk = true) :
      BlockMove s { s with
        opened := true, status := .ok, req := none, lastOp := some .openOp, history := [.opened Config.uart true] }
  | openFail (w : HReq) (hp : s.phase = .idle) (hr : s.req = some w) (hd : decodeRequest w = .ok .openOp)
      (ho : s.opened = false) (ha : s.chan.openOk = false) :
      BlockMove s { s with
        status := .errConn, req := none, lastOp := some .openOp, history := [.opened Config.uart false] }
  | closed (w : HReq) (hp : s.phase = .idle) (hr : s.req = some w) (hd : decodeRequest w = .ok .closeOp)
      (ho : s.opened = true) :
      BlockMove s { s with
        opened := false, status := .ok, req := none, lastOp := some .closeOp, history := [.closed] }
  | txRead (f : Frame) (i : Instr) (hp : s.phase = .tx) (hl : latched s = some i)
      (hf : commandFrame s.cmdOp s.cmdArg = some f) (hw : s.chan.writeErr = none) (ho : s.cmdOp = Config.opRead) :
      BlockMove s { s with
        txbuf := f, txStream := s.txStream ++ frameBytes f, history := s.history ++ [.write f true], phase := .settle }
  | txDone (f : Frame) (i : Instr) (hp : s.phase = .tx) (hl : latched s = some i)
      (hf : commandFrame s.cmdOp s.cmdArg = some f) (hw : s.chan.writeErr = none) (ho : s.cmdOp ≠ Config.opRead) :
      BlockMove s { s with
        txbuf := f, txStream := s.txStream ++ frameBytes f, history := s.history ++ [.write f true], phase := .idle,
        status := .ok }
  | txFail (f : Frame) (i : Instr) (n : Nat) (hp : s.phase = .tx) (hl : latched s = some i)
      (hf : commandFrame s.cmdOp s.cmdArg = some f) (hw : s.chan.writeErr = some n) :
      BlockMove s { s with
        txbuf := f, txStream := s.txStream ++ (frameBytes f).take n, history := s.history ++ [.write f false],
        phase := .idle, status := .errIo }
  | settle (hp : s.phase = .settle) : BlockMove s { s with phase := .rx, history := s.history ++ [.sleep 100] }
  | rxFail (n : Nat) (hp : s.phase = .rx) (hr : s.chan.readErr = some n) :
      BlockMove s { s with
        rxStream := s.rxStream.drop (min n 8), history := s.history ++ [.readErr], status := .errIo, phase := .idle }
  | rxBlocked (hp : s.phase = .rx) (hr : s.chan.readErr = none) (hl : s.rxStream.length < 9) : BlockMove s s
  | rxCorrupt (f : Frame) (rest : List Byte) (hp : s.phase = .rx) (hr : s.chan.readErr = none)
      (hs : s.rxStream = frameBytes f ++ rest) (hc : classify f = .corrupt) :
      BlockMove s { s with
        rxbuf := f, rxStream := rest, history := s.history ++ [.read f], failcnt := s.failcnt + 1, phase := .drain }
  | rxIrrelevant (f : Frame) (rest : List Byte) (hp : s.phase = .rx) (hr : s.chan.readErr = none)
      (hs : s.rxStream = frameBytes f ++ rest) (hc : classify f = .irrelevant) :
      BlockMove s { s with rxbuf := f, rxStream := rest, history := s.history ++ [.read f], phase := .backoff }
  | rxRelevant (f : Frame) (rest : List Byte) (p : U16) (hp : s.phase = .rx) (hr : s.chan.readErr = none)
      (hs : s.rxStream = frameBytes f ++ rest) (hc : classify f = .relevant p) :
      BlockMove s { s with
        rxbuf := f, rxStream := rest, history := s.history ++ [.read f], failcnt := 0, ppm := p, status := .ok,
        phase := .idle }
  | drainLimit (gone rest : List Byte) (hp : s.phase = .drain) (hs : s.rxStream = gone ++ rest)
      (hc : s.failcnt.toNat > 8) :
      BlockMove s { s with rxStream := rest, history := s.history ++ [.drain], status := .errCsum, phase := .idle }
  | drainOn (gone rest : List Byte) (hp : s.phase = .drain) (hs : s.rxStream = gone ++ rest)
      (hc : s.failcnt.toNat ≤ 8) :
      BlockMove s { s with rxStream := rest, history := s.history ++ [.drain], phase := .backoff }
  | backoff (hp : s.phase = .backoff) : BlockMove s { s with phase := .tx, history := s.history ++ [.sleep 100] }

/-- READ's step of RX is one of the rows. -/
theorem BlockMove.of_rxStep {s : State} (hp : s.phase = .rx) : BlockMove s (rxStep s) := by
  rcases rxStep_cases s with ⟨n, hn, h⟩ | ⟨hn, hl, h⟩ | ⟨hn, f, rest, hs, h⟩
  · rw [h]; exact .rxFail n hp hn
  · rw [h]; exact .rxBlocked hp hn hl
  · rw [h]
    rcases receiveFrame_cases f { s with rxStream := rest, history := s.history ++ [.read f] } with
      ⟨hc, h⟩ | ⟨hc, h⟩ | ⟨p, hc, h⟩
    · rw [h]; exact .rxCorrupt f rest hp hn hs hc
    · rw [h]; exact .rxIrrelevant f rest hp hn hs hc
    · rw [h]; exact .rxRelevant f rest p hp hn hs hc

/-- READ's step of DRAIN is one of the rows. -/
theorem BlockMove.of_drainStep {s : State} (hp : s.phase = .drain) : BlockMove s (drainStep s) := by
  obtain ⟨rest, gone, hs, -, ⟨hc, h⟩ | ⟨hc, h⟩⟩ := drainStep_cases s
  · rw [h]; exact .drainLimit gone rest hp hs hc
  · rw [h]; exact .drainOn gone rest hp hs hc

/-- In the phases after TX the block's step is READ's. -/
theorem transceiver_read {s : State} (h1 : s.phase ≠ .idle) (h2 : s.phase ≠ .tx) :
    transceiver s = exec .read s := by
  cases hp : s.phase with
  | idle => exact absurd hp h1
  | tx => exact absurd hp h2
  | settle => simp [transceiver, fetch, hp]
  | drain => simp [transceiver, fetch, hp]
  | backoff => simp [transceiver, fetch, hp]
  | rx =>
    have hx : exec .read s = .next (rxStep s) := by simp [exec, execRead, hp]
    simp only [transceiver, fetch, hp]
    cases hr : chRead s with
    | blocked => rfl
    | ioErr t => rfl
    | frame f t =>
      cases hd : decodeReply f with
      | error e => simp only [hd]
      | ok i => simp only [hd, hx]; exact exec_reply_rx hp hr hd

/-- In TX the block's step is the step of TX of the command the latch holds. -/
theorem transceiver_tx {s : State} {i : Instr} (hp : s.phase = .tx) (hl : latched s = some i) :
    transceiver s = txStep s := by
  simp only [transceiver, fetch, hp, hl]
  exact exec_command_tx hl hp

/-- Everything a step of the block can do. -/
theorem transceiver_cases {s t : State} (h : transceiver s = .next t) : BlockMove s t := by
  cases hp : s.phase with
  | idle =>
    simp only [transceiver, fetch, hp] at h
    cases hr : s.req with
    | none => simp only [hr] at h; cases h; exact .waiting hp hr
    | some w =>
      cases hd : decodeRequest w with
      | error e => simp only [hr, hd] at h; cases h; exact .refused w hp hr
      | ok i =>
        simp only [hr, hd] at h
        cases hf : commandFields i with
        | some x =>
          obtain ⟨op, arg⟩ := x
          rw [exec_command_idle hf s hp] at h
          by_cases ho : s.opened = true
          · simp only [ho, if_true] at h; cases h; exact .accepted w i op arg hp hr hd ho hf
          · simp only [ho] at h; cases h; exact .refused w hp hr
        | none =>
          cases i with
          | openOp =>
            cases ho : s.opened with
            | true => simp [exec, execOpen, hp, ho] at h; subst h; exact .refused w hp hr
            | false =>
              cases ha : s.chan.openOk with
              | true =>
                simp [exec, execOpen, hp, ho, chOpen, ha, endOk] at h
                subst h
                have := BlockMove.openOk w hp hr hd ho ha
                simpa [acceptRequest, hp] using this
              | false =>
                simp [exec, execOpen, hp, ho, chOpen, ha, raise, errorStatus] at h
                subst h
                have := BlockMove.openFail w hp hr hd ho ha
                simpa [acceptRequest, hp, ho] using this
          | closeOp =>
            cases ho : s.opened with
            | false => simp [exec, execClose, hp, ho] at h; subst h; exact .refused w hp hr
            | true =>
              simp [exec, execClose, hp, ho, chClose, endOk, acceptRequest] at h
              subst h
              have := BlockMove.closed w hp hr hd ho
              simpa [hp] using this
          | readReply ppm d4 d5 d6 d7 cs =>
            exfalso
            unfold decodeRequest at hd
            split at hd
            · rw [decodeCommand_eq_ok_iff] at hd; cases hd
            · repeat' split at hd
              all_goals cases hd
          | read => cases hf
          | zero => cases hf
          | span _ => cases hf
          | abc _ => cases hf
          | range2000 => cases hf
          | range5000 => cases hf
  | tx =>
    cases hl : latched s with
    | none => simp [transceiver, fetch, hp, hl] at h
    | some i =>
      simp only [transceiver, fetch, hp, hl] at h
      rw [exec_command_tx hl hp] at h
      rcases txStep_cases s with ⟨-, h2⟩ | ⟨f, hf, ⟨hw, ho, h2⟩ | ⟨hw, ho, h2⟩ | ⟨n, hw, h2⟩⟩
      · rw [h2] at h; cases h
      · rw [h2] at h; cases h; exact .txRead f i hp hl hf hw ho
      · rw [h2] at h; cases h; exact .txDone f i hp hl hf hw ho
      · rw [h2] at h; cases h; exact .txFail f i n hp hl hf hw
  | settle =>
    rw [transceiver_read (by simp [hp]) (by simp [hp])] at h
    simp [exec, execRead, hp] at h
    subst h; exact .settle hp
  | rx =>
    rw [transceiver_read (by simp [hp]) (by simp [hp])] at h
    simp [exec, execRead, hp] at h
    subst h; exact .of_rxStep hp
  | drain =>
    rw [transceiver_read (by simp [hp]) (by simp [hp])] at h
    simp [exec, execRead, hp] at h
    subst h; exact .of_drainStep hp
  | backoff =>
    rw [transceiver_read (by simp [hp]) (by simp [hp])] at h
    simp [exec, execRead, hp] at h
    subst h; exact .backoff hp

/-- Taking a turn off the schedule changes the schedule only. -/
theorem nextTurn_snd (s : State) : ∃ ts n, (nextTurn s).2 = { s with turns := ts, tick := n } := by
  unfold nextTurn
  repeat' split
  · exact ⟨_, s.tick, rfl⟩
  · exact ⟨_, s.tick, rfl⟩
  · exact ⟨s.turns, s.tick + 1, by rfl⟩

/-- Everything a step of the machine can do when it answers a next state. -/
theorem step_cases {s t : State} (h : step s = .next t) :
    ∃ ts n, (nextTurn s).2 = { s with turns := ts, tick := n } ∧
      ((∃ a, (nextTurn s).1 = .transceiver a ∧ BlockMove (beginStep a { s with turns := ts, tick := n }) t) ∨
      (∃ w, (nextTurn s).1 = .hostPresents w ∧ t = hostPresents w { s with turns := ts, tick := n }) ∨
      ((nextTurn s).1 = .hostReadsPpm ∧ ppmMeaningful s = true ∧
        t = { s with turns := ts, tick := n, hostPpm := some s.ppm }) ∨
      (∃ bs, (nextTurn s).1 = .deviceSends bs ∧ t = deviceSends bs { s with turns := ts, tick := n }) ∨
      (∃ k, (nextTurn s).1 = .deviceTakes k ∧ t = deviceTakes k { s with turns := ts, tick := n }) ∨
      (∃ k b, (nextTurn s).1 = .lineAlters k b ∧ t = lineAlters k b { s with turns := ts, tick := n }) ∨
      (∃ k, (nextTurn s).1 = .lineDrops k ∧ t = lineDrops k { s with turns := ts, tick := n }) ∨
      (∃ k, (nextTurn s).1 = .reset k ∧ t = resetBlock k { s with turns := ts, tick := n })) := by
  obtain ⟨ts, n, h2⟩ := nextTurn_snd s
  refine ⟨ts, n, h2, ?_⟩
  unfold step at h
  cases h1 : nextTurn s with
  | mk turn u =>
    rw [h1] at h h2
    simp only at h2
    subst h2
    cases turn with
    | transceiver a => exact .inl ⟨a, rfl, transceiver_cases h⟩
    | hostPresents w => cases h; exact .inr (.inl ⟨w, rfl, rfl⟩)
    | hostReadsPpm =>
      simp only [hostReadsPpm] at h
      split at h
      · rename_i hm
        cases h
        exact .inr (.inr (.inl ⟨rfl, hm, rfl⟩))
      · cases h
    | deviceSends bs => cases h; exact .inr (.inr (.inr (.inl ⟨bs, rfl, rfl⟩)))
    | deviceTakes k => cases h; exact .inr (.inr (.inr (.inr (.inl ⟨k, rfl, rfl⟩))))
    | lineAlters k b => cases h; exact .inr (.inr (.inr (.inr (.inr (.inl ⟨k, b, rfl, rfl⟩)))))
    | lineDrops k => cases h; exact .inr (.inr (.inr (.inr (.inr (.inr (.inl ⟨k, rfl, rfl⟩))))))
    | reset k => cases h; exact .inr (.inr (.inr (.inr (.inr (.inr (.inr ⟨k, rfl, rfl⟩))))))

/-- The registers of the block after a reset are those of `State.reset`, whatever was abandoned; the streams keep what was
not moved. -/
theorem resetBlock_fields (n : Nat) (s : State) :
    (resetBlock n s).phase = .idle ∧ (resetBlock n s).opened = false ∧ (resetBlock n s).status = .none ∧
    (resetBlock n s).failcnt = 0 ∧ (resetBlock n s).lastOp = none ∧ (resetBlock n s).history = [] ∧
    (resetBlock n s).refused = false ∧ (resetBlock n s).req = s.req := by
  refine ⟨rfl, rfl, rfl, rfl, rfl, rfl, rfl, ?_⟩
  simp only [resetBlock, abandonPrimitive]
  cases s.phase with
  | tx => cases commandFrame s.cmdOp s.cmdArg <;> rfl
  | idle => rfl
  | settle => rfl
  | rx => rfl
  | drain => rfl
  | backoff => rfl

end Sys2Proof.Machine
end

