-- ==== Sys2Proof/Tests/Slice0.lean ====
section
/-! SUPPORT. The author's own tests, their expected values from 95_test_vectors.md and 30_encoding.md, and a witness for the
hypotheses of each statement that has some. -/

namespace Sys2Proof.Tests.Slice0

open Sys2Proof Sys2Proof.Machine

/-! ## Frames and states -/

/-- `GOOD` of 95_test_vectors.md part 3. -/
def good : Frame := ⟨0xFF, 0x86, 0x04, 0x4B, 0x00, 0x00, 0x00, 0x00, 0x2B⟩

/-- `BAD` of 95_test_vectors.md part 3. -/
def bad : Frame := ⟨0xFF, 0x86, 0x04, 0x4C, 0x00, 0x00, 0x00, 0x00, 0x2B⟩

/-- `STRAY` of 95_test_vectors.md part 3. -/
def stray : Frame := ⟨0xFF, 0x87, 0x00, 0x00, 0x00, 0x00, 0x00, 0x00, 0x79⟩

/-- The idle block that holds the handle, right after OPEN. -/
def idleOpen : State := { State.reset with opened := true, status := .ok, lastOp := some .openOp }

/-- A block in phase TX with the command `i` in its latch. -/
def sending (i : Instr) (op : Byte) (arg : U16) : State :=
  { State.reset with opened := true, phase := .tx, cmdOp := op, cmdArg := arg, lastOp := some i }

/-- A READ in phase `p`, `n` corrupt frames counted, `rx` waiting to be read. -/
def reading (p : Phase) (n : BitVec 4) (rx : List Byte) : State :=
  { sending .read 0x86 0 with phase := p, failcnt := n, rxStream := rx }

/-- Answers of a channel whose every primitive fails. -/
def broken : ChanAnswer := ⟨false, some 4, some 3, some 2⟩

/-- A READ that ended with the value of `good`. -/
def readDone : State :=
  { reading .idle 0 [] with
    status := .ok, ppm := 1099, rxbuf := good, history := [wroteRead, waited, .read good] }

/-- A READ that ended by its ninth corrupt frame. -/
def readExhausted : State :=
  { reading .idle 9 [] with
    status := .errCsum, rxbuf := bad,
    history := cyclesEvents (List.replicate 8 bad) ++ [wroteRead, waited, .read bad, .drain] }

/-- The state after a step, where there is one. -/
def next (o : Result) : Option State :=
  match o with
  | .next s => some s
  | .fault _ => none
  | .refused _ => none

/-! ## Well-formedness -/

theorem test_wellFormed_refuses_wrong_checksum : (Instr.readReply 1100 0 0 0 0 0x2B).wellFormed = false := by decide

theorem test_wellFormed_admits_the_reply : (Instr.readReply 1099 0 0 0 0 0x2B).wellFormed = true := by decide

theorem test_wellFormed_admits_nonzero_offset4 : (Instr.readReply 400 0x43 0 0 0 0xA6).wellFormed = true := by decide

/-! ## Words written out field by field: kind, op, arg (30_encoding.md R58, R59) -/

theorem test_decode_open : decode (.request (0b01#2 ++ 0b10101011#8 ++ 0b1100110111101111#16)) = .ok .openOp := by decide

theorem test_decode_close : decode (.request (0b10#2 ++ 0b00000000#8 ++ 0b0000000000000001#16)) = .ok .closeOp := by decide

theorem test_decode_read : decode (.request (0b00#2 ++ 0b10000110#8 ++ 0b0000000000000000#16)) = .ok .read := by decide

theorem test_decode_zero : decode (.request (0b00#2 ++ 0b10000111#8 ++ 0b0000000000000000#16)) = .ok .zero := by decide

theorem test_decode_span :
    decode (.request (0b00#2 ++ 0b10001000#8 ++ 0b0000001111101000#16)) = .ok (.span 1000) := by decide

theorem test_decode_abc :
    decode (.request (0b00#2 ++ 0b01111001#8 ++ 0b0000000000000001#16)) = .ok (.abc true) ∧
    decode (.request (0b00#2 ++ 0b01111001#8 ++ 0b0000000000000000#16)) = .ok (.abc false) := by decide

theorem test_decode_range2000 :
    decode (.request (0b00#2 ++ 0b10011001#8 ++ 0b0000011111010000#16)) = .ok .range2000 := by decide

theorem test_decode_range5000 :
    decode (.request (0b00#2 ++ 0b10011001#8 ++ 0b0001001110001000#16)) = .ok .range5000 := by decide

theorem test_decode_readReply : decode (.frame good) = .ok (.readReply 1099 0 0 0 0 0x2B) := by decide

theorem test_decode_refuses_by_name :
    decodeRequest 0x3000000 = .error .reservedKind ∧ decodeRequest 0x0850000 = .error (.unknownOpcode 0x85) ∧
    decodeRequest 0x0860001 = .error (.argumentNotZero 1) ∧ decodeRequest 0x0870100 = .error (.argumentNotZero 0x100) ∧
    decodeRequest 0x0790002 = .error (.abcArgument 2) ∧ decodeRequest 0x09907D1 = .error (.rangeArgument 2001) ∧
    decodeRequest 0x0990BB8 = .error (.rangeArgument 3000) ∧ decode (.frame stray) = .error .notReadReply := by decide

theorem test_encode_words :
    encode .openOp = .request 0x1000000 ∧ encode .closeOp = .request 0x2000000 ∧ encode .read = .request 0x0860000 ∧
    encode .zero = .request 0x0870000 ∧ encode (.span 0x7700) = .request 0x0887700 ∧
    encode (.abc true) = .request 0x0790001 ∧ encode .range2000 = .request 0x09907D0 ∧
    encode .range5000 = .request 0x0991388 ∧ encode (.readReply 1099 0 0 0 0 0x2B) = .frame good := by decide

/-! ## Checksum and classes (95_test_vectors.md V1, V3) -/

theorem test_checksum_vectors :
    checksum ⟨0, 0x80, 0x80, 0, 0, 0, 0, 0, 0⟩ = 0x00 ∧
    checksum ⟨0, 0xFF, 0xFF, 0xFF, 0xFF, 0xFF, 0xFF, 0xFF, 0⟩ = 0x07 ∧
    checksum ⟨0, 0, 0, 0, 0, 0, 0, 1, 0⟩ = 0xFF ∧ checksum ⟨0xAA, 0x01, 0x86, 0, 0, 0, 0, 0, 0x55⟩ = 0x79 := by decide

theorem test_classify_vectors :
    classify good = .relevant 1099 ∧ classify bad = .corrupt ∧ classify stray = .irrelevant ∧
    classify ⟨0xFF, 0x87, 0x04, 0x4B, 0, 0, 0, 0, 0x2B⟩ = .corrupt ∧
    classify ⟨0xFE, 0x86, 0x04, 0x4B, 0, 0, 0, 0, 0x2B⟩ = .irrelevant ∧
    classify ⟨0xFF, 0x86, 0x05, 0x4A, 0, 0, 0, 0, 0x2B⟩ = .relevant 1354 := by decide

/-! ## One step of each instruction -/

/-- P7: a failed open. -/
theorem test_open_fails :
    (next (exec .openOp { State.reset with chan := broken })).map (fun t => (t.opened, statusCode t.status, t.txStream)) =
      some (false, 2, []) := by decide

/-- V2: OPEN while open is refused. -/
theorem test_open_refused : (next (exec .openOp idleOpen)).map (fun t => (t.refused, t.opened, t.status)) =
    some (true, true, .ok) := by decide

/-- P10: CLOSE after P4 leaves `FAILCNT` at 9. -/
theorem test_close_after_exhausted :
    (next (exec .closeOp readExhausted)).map (fun t => (t.opened, t.status, t.failcnt)) = some (false, .ok, 9) := by decide

/-- P1, step 3. -/
theorem test_read_sends : (next (exec .read (reading .tx 0 []))).map (fun t => (t.phase, t.txStream)) =
    some (.settle, [0xFF, 0x01, 0x86, 0x00, 0x00, 0x00, 0x00, 0x00, 0x79]) := by decide

/-- V4: the ninth corrupt frame, drained. -/
theorem test_read_limit :
    (next (exec .read (reading .drain 9 [1, 2]))).map (fun t => (t.phase, t.status, t.rxStream)) =
      some (.idle, .errCsum, []) ∧
    (next (exec .read (reading .drain 8 [1, 2]))).map (fun t => (t.phase, t.status)) = some (.backoff, .none) := by decide

/-- P6. -/
theorem test_zero_sends : (next (exec .zero (sending .zero 0x87 0))).map (fun t => (t.status, t.txStream)) =
    some (.ok, [0xFF, 0x01, 0x87, 0x00, 0x00, 0x00, 0x00, 0x00, 0x78]) := by decide

/-- P6. -/
theorem test_span_sends :
    (next (exec (.span 1000) (sending (.span 1000) 0x88 1000))).map (fun t => (t.status, t.txStream)) =
      some (.ok, [0xFF, 0x01, 0x88, 0x03, 0xE8, 0x00, 0x00, 0x00, 0x8C]) := by decide

/-- P8c: a failed write, no retry; the channel took four of the bytes. -/
theorem test_span_fails :
    (next (exec (.span 1000) { sending (.span 1000) 0x88 1000 with chan := broken })).map
      (fun t => (t.status, t.phase, t.txStream)) = some (.errIo, .idle, [0xFF, 0x01, 0x88, 0x03]) := by decide

/-- P6. -/
theorem test_abc_on_sends : (next (exec (.abc true) (sending (.abc true) 0x79 1))).map (fun t => t.txStream) =
    some [0xFF, 0x01, 0x79, 0xA0, 0x00, 0x00, 0x00, 0x00, 0xE6] := by decide

/-- P6. -/
theorem test_abc_off_sends : (next (exec (.abc false) (sending (.abc false) 0x79 0))).map (fun t => t.txStream) =
    some [0xFF, 0x01, 0x79, 0x00, 0x00, 0x00, 0x00, 0x00, 0x86] := by decide

/-- P6. -/
theorem test_range2000_sends : (next (exec .range2000 (sending .range2000 0x99 2000))).map (fun t => t.txStream) =
    some [0xFF, 0x01, 0x99, 0x07, 0xD0, 0x00, 0x00, 0x00, 0x8F] := by decide

/-- P6. -/
theorem test_range5000_sends : (next (exec .range5000 (sending .range5000 0x99 5000))).map (fun t => t.txStream) =
    some [0xFF, 0x01, 0x99, 0x13, 0x88, 0x00, 0x00, 0x00, 0xCB] := by decide

/-- P9: the stale reply is delivered, the fresh one stays in the stream. -/
theorem test_readReply_stale :
    (next (exec (.readReply 400 0x43 0 0 0 0xA6)
      (reading .rx 8 ([0xFF, 0x86, 0x01, 0x90, 0x43, 0x00, 0x00, 0x00, 0xA6] ++ frameBytes good)))).map
      (fun t => (t.ppm, t.status, t.failcnt, t.rxStream)) = some (400, .ok, 0, frameBytes good) := by decide

/-- V4: an irrelevant frame at `FAILCNT = 5` leaves 5. -/
theorem test_irrelevant_does_not_count :
    (next (exec .read (reading .rx 5 (frameBytes stray)))).map (fun t => (t.phase, t.failcnt, t.rxbuf)) =
      some (.backoff, 5, stray) := by decide

/-! ## Witnesses: the codec and the decoder -/

theorem witness_ChecksumInvertsTheSumAndAddsOne :
    (0x80 + 0x80 + 0 + 0 + 0 + 0 + 0 : Byte) = 0x00 ∧ (0x80 + 0 + 0 + 0 + 0 + 0 + 0 : Byte) = 0x80 ∧
    (0 + 0 + 0 + 0 + 0 + 0 + 1 : Byte) = 0x01 ∧ (0xFF + 0 + 0 + 0 + 0 + 0 + 0 : Byte) = 0xFF := by decide

theorem witness_ChecksumFindsEverySingleByteChange :
    csumOk good = true ∧ (1 : Fin 9) ≠ 0 ∧ (0x87 : Byte) ≠ frameGet good 1 ∧ (8 : Fin 9) ≠ 0 ∧
    (0x2A : Byte) ≠ frameGet good 8 ∧ (1 : Fin 9) ≠ 7 ∧ (1 : Fin 9) ≠ 8 ∧ (7 : Fin 9) ≠ 0 ∧ (7 : Fin 9) ≠ 8 := by decide

theorem witness_LatchedCommandsSendTheTablesFrames :
    wireFields .read = some (0x86, 0) ∧ wireFields (.span 0xFFFF) = some (0x88, 0xFFFF) ∧
    (∀ i : Instr, wireFields i ≠ some (0x85, 0)) ∧ (∀ i : Instr, wireFields i ≠ some (0x79, 2)) :=
  ⟨rfl, rfl, fun i => by cases i <;> simp [wireFields]; rename_i e; cases e <;> simp,
    fun i => by cases i <;> simp [wireFields]; rename_i e; cases e <;> simp⟩

theorem witness_ChangedByteIsNeverAReading :
    classify good = .relevant 1099 ∧ (0xFE : Byte) ≠ frameGet good 0 ∧ (0x87 : Byte) ≠ frameGet good 1 ∧
    (0x2A : Byte) ≠ frameGet good 8 := by decide

theorem witness_PlacedWordIsTheNextInstruction :
    decodeTableWord 32 0x088FFFF = some (.span 65535) ∧
    decodeTableWord 72 0xFF86FFFF000000007C = some (.readReply 65535 0 0 0 0 0x7C) := by decide

/-! ## Witnesses: a step -/

theorem witness_StepRunsTheFetchedInstruction :
    idleOpen.phase = .idle ∧ idleOpen.req = none ∧ decode (.request 0x088FFFF) = .ok (.span 65535) ∧
    (sending .zero 0x87 0).phase = .tx ∧ decodeCommand 0x87 0 = .ok .zero ∧
    (reading .rx 0 (frameBytes good)).phase = .rx ∧ ChanAnswer.allOk.readErr = none ∧
    takeFrame (reading .rx 0 (frameBytes good)).rxStream = some (good, []) ∧
    decode (.frame good) = .ok (.readReply 1099 0 0 0 0 0x2B) ∧
    (reading .drain 9 []).phase ≠ .idle ∧ (reading .drain 9 []).phase ≠ .tx := by decide

theorem witness_TurnsComeFromTheSchedule :
    (∃ s : State, s.turns = [okTurn]) ∧ (∃ s : State, s.turns = [] ∧ s.again = [okTurn, .lineDrops 0]) ∧
    (State.reset.turns = [] ∧ State.reset.again = []) :=
  ⟨⟨{ State.reset with turns := [okTurn] }, rfl⟩, ⟨{ State.reset with again := [okTurn, .lineDrops 0] }, rfl, rfl⟩, rfl, rfl⟩

/-- The first READ's ninth corrupt frame has been counted; the invariant holds. -/
theorem drain_inv : ({ reading .drain 9 [] with turns := [okTurn] } : State).Inv := by
  constructor <;> decide

/-- The end of a READ satisfies the invariant. -/
theorem readDone_inv : readDone.Inv := by
  constructor <;> decide

theorem witness_OnlyTheMeaninglessPpmReadStops :
    readDone.Inv ∧ ({ idleOpen with turns := [.hostReadsPpm] } : State).Inv ∧
    step { idleOpen with turns := [.hostReadsPpm] } = .fault .ppmNotMeaningful :=
  ⟨readDone_inv, by constructor <;> decide, rfl⟩

theorem witness_CommandsAreAcceptedWhenOpen :
    idleOpen.phase = .idle ∧ idleOpen.opened = true ∧ readExhausted.phase = .idle ∧ readExhausted.opened = true ∧
    wireFields .read = some (0x86, 0) ∧ wireFields .zero = some (0x87, 0) ∧ wireFields (.span 0) = some (0x88, 0) ∧
    wireFields (.abc true) = some (0x79, 1) ∧ wireFields .range2000 = some (0x99, 2000) ∧
    wireFields .range5000 = some (0x99, 5000) := by decide

theorem witness_RefusedRequestsChangeNothing :
    idleOpen.phase = .idle ∧ idleOpen.opened = true ∧ State.reset.phase = .idle ∧ State.reset.opened = false ∧
    decodeRequest 0x3FFFFFF = .error .reservedKind ∧
    ({ idleOpen with turns := [okTurn], req := some 0x3FFFFFF } : State).req = some 0x3FFFFFF := by decide

theorem witness_RequestsAreHeldWhileBusy :
    ∃ t, step { reading .backoff 8 [] with turns := [okTurn], req := some 0x2000000 } = .next t ∧
      t.req = some 0x2000000 := ⟨_, rfl, rfl⟩

theorem witness_OtherOperationsAreHeld :
    (reading .backoff 0 []).phase ≠ .idle ∧ (reading .backoff 0 []).phase ≠ .tx ∧
    (sending (.span 1) 0x88 1).phase = .tx ∧ wireFields (.span 2) = some (0x88, 2) ∧
    ¬ ((sending (.span 1) 0x88 1).cmdOp = 0x88 ∧ (sending (.span 1) 0x88 1).cmdArg = 2) := by decide

theorem witness_OpenTakesTheHandle :
    State.reset.phase = .idle ∧ State.reset.opened = false ∧ State.reset.chan.openOk = true ∧
    ({ State.reset with chan := broken } : State).chan.openOk = false := by decide

theorem witness_CloseGivesTheHandleBack : readExhausted.phase = .idle ∧ readExhausted.opened = true := by decide

/-! ## Witnesses: the phases -/

theorem witness_TxWritesTheCommandsFrame :
    wireFrame .read = some readFrame ∧ (reading .tx 8 []).phase = .tx ∧
    wireFields .read = some ((reading .tx 8 []).cmdOp, (reading .tx 8 []).cmdArg) ∧
    (reading .tx 8 []).chan.writeErr = none ∧ (sending (.abc true) 0x79 1).phase = .tx ∧
    wireFields (.abc true) = some ((sending (.abc true) 0x79 1).cmdOp, (sending (.abc true) 0x79 1).cmdArg) ∧
    ({ sending (.abc true) 0x79 1 with chan := broken } : State).chan.writeErr = some 4 := by decide

theorem witness_OneShotIsOneWrite :
    let s : State := { idleOpen with turns := [okTurn, .transceiver broken], req := some 0x0991388 }
    s.turns = [.transceiver ChanAnswer.allOk, .transceiver broken] ∧ s.phase = .idle ∧ s.opened = true ∧
    s.req = some 0x0991388 ∧ decodeRequest 0x0991388 = .ok .range5000 ∧ Instr.range5000 ≠ .read ∧
    wireFrame .range5000 = some ⟨0xFF, 0x01, 0x99, 0x13, 0x88, 0x00, 0x00, 0x00, 0xCB⟩ := by decide

theorem witness_WaitsChangeOnlyThePhase :
    (reading .settle 0 []).phase = .settle ∧ (reading .backoff 8 []).phase = .backoff := by decide

theorem witness_ReadFailureEndsTheRead :
    let s : State := { reading .rx 1 (frameBytes good) with chan := { ChanAnswer.allOk with readErr := some 9 } }
    s.phase = .rx ∧ s.chan.readErr = some 9 := by decide

theorem witness_ReadTakesOneOfThreeBranches :
    let s (f : Frame) : State := reading .rx 8 (frameBytes f ++ [0xFF])
    ((s bad).phase = .rx ∧ (s bad).chan.readErr = none ∧ (s bad).rxStream = frameBytes bad ++ [0xFF] ∧
      classify bad = .corrupt) ∧
    ((s stray).rxStream = frameBytes stray ++ [0xFF] ∧ classify stray = .irrelevant) ∧
    ((s good).rxStream = frameBytes good ++ [0xFF] ∧ classify good = .relevant 1099) := by decide

theorem witness_ReadWaitsForNineBytes :
    (reading .rx 0 [0xFF, 0x86, 0, 0, 0, 0, 0, 0]).phase = .rx ∧
    (reading .rx 0 [0xFF, 0x86, 0, 0, 0, 0, 0, 0]).chan.readErr = none ∧
    (reading .rx 0 [0xFF, 0x86, 0, 0, 0, 0, 0, 0]).rxStream.length < 9 := by decide

theorem witness_ReadReplyEndsTheRead :
    (reading .rx 0 (frameBytes good)).phase = .rx ∧ (Instr.readReply 1099 0 0 0 0 0x2B).wellFormed = true ∧
    (Instr.readReply 1100 0 0 0 0 0x2B).wellFormed = false ∧ idleOpen.phase ≠ .rx := by decide

theorem witness_DrainComesBeforeTheLimit :
    (reading .drain 9 [1]).phase = .drain ∧ (reading .drain 9 [1]).chan.drainCut = none ∧
    (reading .drain 9 [1]).failcnt.toNat > 8 ∧ (reading .drain 8 [1]).failcnt.toNat ≤ 8 ∧
    ({ reading .drain 8 [1, 2, 3] with chan := broken } : State).chan.drainCut = some 2 := by decide

/-! ## Witnesses: whole-machine rules -/

theorem witness_PhasesFollowTheTable :
    ∃ t, step { reading .tx 0 [] with turns := [okTurn] } = .next t ∧ t.phase = .settle := ⟨_, rfl, rfl⟩

theorem witness_ErrorsComeFromTheirSources :
    (∃ t, step { State.reset with turns := [.transceiver broken], req := some 0x1000000 } = .next t ∧
      t.status = .errConn) ∧
    (∃ t, step { sending .zero 0x87 0 with turns := [.transceiver broken] } = .next t ∧ t.status = .errIo) ∧
    (∃ t, step { reading .rx 0 [] with turns := [.transceiver broken] } = .next t ∧ t.status = .errIo) ∧
    (∃ t, step { reading .drain 9 [] with turns := [okTurn] } = .next t ∧ t.status = .errCsum) :=
  ⟨⟨_, rfl, rfl⟩, ⟨_, rfl, rfl⟩, ⟨_, rfl, rfl⟩, ⟨_, rfl, rfl⟩⟩

theorem witness_ErrorsKeepTheRegisters :
    ∃ t, step { reading .rx 1 [] with turns := [.transceiver broken] } = .next t ∧ Status.errIo ≠ Status.none ∧
      (reading .rx 1 []).status = .none ∧ t.status = .errIo := ⟨_, rfl, by decide, rfl, rfl⟩

theorem witness_PpmIsWrittenByAReadingOnly :
    (∃ t, step { reading .rx 0 (frameBytes good) with turns := [okTurn] } = .next t ∧ t.ppm ≠ (reading .rx 0 []).ppm) ∧
    (∃ t, step { readDone with turns := [.reset 0] } = .next t ∧ t.ppm ≠ readDone.ppm) :=
  ⟨⟨_, rfl, by decide⟩, ⟨_, rfl, by decide⟩⟩

theorem witness_TheHandleMovesByOpenAndCloseOnly :
    (∃ t, step { State.reset with turns := [okTurn], req := some 0x1ABCDEF } = .next t ∧ t.opened = true) ∧
    (∃ t, step { idleOpen with turns := [okTurn], req := some 0x2000000 } = .next t ∧ t.opened = false) ∧
    (∃ t, step { idleOpen with turns := [.reset 0] } = .next t ∧ t.opened = false) :=
  ⟨⟨_, rfl, rfl⟩, ⟨_, rfl, rfl⟩, ⟨_, rfl, rfl⟩⟩

theorem witness_StreamsMoveWhereTheTableSays :
    (∃ t, step { reading .tx 0 [] with turns := [okTurn] } = .next t ∧ t.txStream.length = 9) ∧
    (∃ t, step { reading .rx 0 (frameBytes bad ++ [7]) with turns := [okTurn] } = .next t ∧ t.rxStream = [7]) ∧
    (∃ t, step { reading .settle 0 [7] with turns := [okTurn] } = .next t ∧ t.rxStream = [7]) :=
  ⟨⟨_, rfl, by decide⟩, ⟨_, rfl, by decide⟩, ⟨_, rfl, rfl⟩⟩

theorem witness_OtherAgentsLeaveTheBlock :
    let s : State := { reading .rx 0 [1] with turns := [.hostPresents 0x2000000] }
    (∃ t, step s = .next t) ∧ (∀ a, (nextTurn s).1 ≠ .transceiver a) ∧ (∀ n, (nextTurn s).1 ≠ .reset n) ∧
    (nextTurn s).1 = .hostPresents 0x2000000 :=
  ⟨⟨_, rfl⟩, fun _ h => (by cases h), fun _ h => (by cases h), rfl⟩

theorem witness_ResetAbandonsTheOperation :
    (∃ t, step { sending .zero 0x87 0 with turns := [.reset 9] } = .next t ∧ t.txStream.length = 9) ∧
    commandFrame 0x87 0 = some ⟨0xFF, 0x01, 0x87, 0x00, 0x00, 0x00, 0x00, 0x00, 0x78⟩ ∧
    (∃ t, step { reading .rx 3 (frameBytes good) with turns := [.reset 9] } = .next t ∧ t.rxStream = [0x2B]) ∧
    (∃ t, step { reading .drain 3 [5, 6, 7] with turns := [.reset 2] } = .next t ∧ t.rxStream = [7]) ∧
    (∃ t, step { reading .drain 3 [5, 6, 7] with turns := [.reset 3] } = .next t ∧ t.rxStream = []) ∧
    (∃ t, step { reading .backoff 3 [5] with turns := [.reset 9] } = .next t ∧ t.rxStream = [5]) :=
  ⟨⟨_, rfl, by decide⟩, by decide, ⟨_, rfl, by decide⟩, ⟨_, rfl, rfl⟩, ⟨_, rfl, rfl⟩, ⟨_, rfl, rfl⟩⟩

theorem witness_HostGetsOnlyValidatedPpm :
    ({ readDone with turns := [.hostReadsPpm] } : State).Inv ∧ readDone.status = .ok ∧ readDone.lastOp = some .read ∧
    ¬ (idleOpen.status = .ok ∧ idleOpen.lastOp = some .read) ∧
    ({ idleOpen with turns := [.hostReadsPpm] } : State).turns = [.hostReadsPpm] :=
  ⟨by constructor <;> decide, rfl, rfl, by decide, rfl⟩

/-! ## Witnesses: invariants and whole READs -/

theorem witness_EveryStepKeepsTheInvariant :
    ∃ s t : State, s.Inv ∧ step s = .next t ∧ t.status = .errCsum :=
  ⟨{ reading .drain 9 [] with turns := [okTurn] }, _, drain_inv, rfl, rfl⟩

/-- The grammar of a READ whose first frame was corrupt, in DRAIN. -/
theorem drain_grammar :
    ReadGrammar { reading .drain 1 [] with turns := [okTurn], history := [wroteRead, waited, .read bad] } := fun _ =>
  ⟨[], by simp [NoneRelevant], by decide, rfl, bad, by decide, rfl⟩

theorem witness_EveryStepKeepsTheReadGrammar :
    let s : State := { reading .drain 1 [] with turns := [okTurn], history := [wroteRead, waited, .read bad] }
    s.Inv ∧ ReadGrammar s ∧ ∃ t, step s = .next t ∧ t.phase = .backoff :=
  ⟨by constructor <;> decide, drain_grammar, _, rfl, rfl⟩

/-- P1's READ is in the grammar. -/
theorem readDone_grammar : ReadGrammar readDone := fun _ =>
  ⟨[], by simp [NoneRelevant], by decide, rfl, good, by decide, rfl⟩

/-- P4's READ is in the grammar. -/
theorem readExhausted_grammar : ReadGrammar readExhausted := fun _ =>
  ⟨List.replicate 8 bad, fun f h => by rw [List.eq_of_mem_replicate h]; decide, by decide, rfl, by decide, bad,
    by decide, rfl⟩

theorem witness_EndedReadsHaveTheTablesCounts :
    (ReadGrammar readDone ∧ readDone.lastOp = some .read ∧ readDone.phase = .idle ∧ readDone.status = .ok) ∧
    (ReadGrammar readExhausted ∧ readExhausted.lastOp = some .read ∧ readExhausted.phase = .idle ∧
      readExhausted.status = .errCsum) :=
  ⟨⟨readDone_grammar, rfl, rfl, rfl⟩, readExhausted_grammar, rfl, rfl, rfl⟩

/-- P2's frames. -/
theorem witness_ReadSucceedsWithinEightCorruptFrames :
    let fs := [bad, bad, stray]
    let s : State := { idleOpen with failcnt := 9, turns := readTurns fs good 3 }
    s.phase = .idle ∧ s.opened = true ∧ s.rxStream = [] ∧ NoneRelevant fs ∧ corruptCount fs ≤ 8 ∧
    corruptCount (List.replicate 8 bad) ≤ 8 ∧ classify good = .relevant 1099 ∧ s.turns = readTurns fs good 3 ++ [] :=
  ⟨rfl, rfl, rfl, by unfold NoneRelevant; decide, by decide, by decide, by decide, by simp⟩

/-- P4b's frames. -/
theorem witness_NinthCorruptFrameExhaustsTheRead :
    let fs := [bad, bad, bad, bad, stray, bad, bad, bad, bad]
    let s : State := { idleOpen with turns := readTurns fs bad 4 }
    s.phase = .idle ∧ s.opened = true ∧ s.rxStream = [] ∧ NoneRelevant fs ∧ corruptCount fs = 8 ∧
    classify bad = .corrupt ∧ s.turns = readTurns fs bad 4 ++ [] :=
  ⟨rfl, rfl, rfl, by unfold NoneRelevant; decide, by decide, by decide, by simp⟩

/-- P5's environment. -/
theorem witness_IrrelevantFramesKeepAReadForEver :
    let s : State := { reading .tx 0 [] with again := cycleTurns stray }
    s.phase = .tx ∧ s.cmdOp = 0x86 ∧ s.cmdArg = 0 ∧ s.rxStream = [] ∧ s.turns = [] ∧ classify stray = .irrelevant ∧
    s.again = cycleTurns stray := by decide

/-- A word laid down after reset is what the next step runs: here OPEN. -/
theorem test_withFetchWord_open :
    (next (step (State.reset.withFetchWord 32 0x1000000))).map (fun t => (t.opened, t.status, t.lastOp)) =
      some (true, .ok, some .openOp) := by decide

/-- A frame laid down after reset is what the next step runs: the reply's value is in `PPM`. -/
theorem test_withFetchWord_reply :
    (next (step (State.reset.withFetchWord 72 0xFF86044B000000002B))).map (fun t => (t.ppm, t.status, t.rxbuf)) =
      some (1099, .ok, good) := by decide

end Sys2Proof.Tests.Slice0
end

section
/-! The statements of 10_state.md. First the rules they share: what taking a turn leaves, and the three kinds of step
(`step_by_kind`); then the invariant, its ways in (`State.Inv.of_…`) and the rows that keep it; then the other statements. -/

namespace Sys2Proof.Machine

/-! ## The schedule of turns -/

theorem nextTurn_of_turns_cons {s : State} {t : Turn} {ts : List Turn} (h : s.turns = t :: ts) :
    nextTurn s = (t, { s with turns := ts }) := by
  simp only [nextTurn, h]

theorem nextTurn_of_again_cons {s : State} {t : Turn} {ts : List Turn} (h : s.turns = []) (ha : s.again = t :: ts) :
    nextTurn s = (t, { s with turns := ts }) := by
  simp only [nextTurn, h, ha]

theorem nextTurn_of_no_schedule {s : State} (h : s.turns = []) (ha : s.again = []) :
    nextTurn s = (Config.freeTurn s.tick, { s with tick := s.tick + 1 }) := by
  simp only [nextTurn, h, ha]

/-- Taking a turn off the schedule leaves every field but the schedule's own `turns` and `tick`. -/
@[simp] theorem nextTurn_fields (s : State) :
    (nextTurn s).2.phase = s.phase ∧ (nextTurn s).2.opened = s.opened ∧ (nextTurn s).2.cmdOp = s.cmdOp ∧
    (nextTurn s).2.cmdArg = s.cmdArg ∧ (nextTurn s).2.txbuf = s.txbuf ∧ (nextTurn s).2.rxbuf = s.rxbuf ∧
    (nextTurn s).2.failcnt = s.failcnt ∧ (nextTurn s).2.ppm = s.ppm ∧ (nextTurn s).2.status = s.status ∧
    (nextTurn s).2.req = s.req ∧ (nextTurn s).2.refused = s.refused ∧ (nextTurn s).2.txStream = s.txStream ∧
    (nextTurn s).2.rxStream = s.rxStream ∧ (nextTurn s).2.history = s.history ∧
    (nextTurn s).2.lastOp = s.lastOp ∧ (nextTurn s).2.chan = s.chan ∧ (nextTurn s).2.again = s.again ∧
    (nextTurn s).2.hostPpm = s.hostPpm := by
  obtain ⟨ts, n, h⟩ := nextTurn_snd s
  rw [h]
  exact ⟨rfl, rfl, rfl, rfl, rfl, rfl, rfl, rfl, rfl, rfl, rfl, rfl, rfl, rfl, rfl, rfl, rfl, rfl⟩

/-! ## The three kinds of turn -/

/-- `t` has the nine registers of `s` (10_state.md R22) and the same last accepted operation. -/
structure SameRegisters (s t : State) : Prop where
  phase : t.phase = s.phase
  opened : t.opened = s.opened
  cmdOp : t.cmdOp = s.cmdOp
  cmdArg : t.cmdArg = s.cmdArg
  txbuf : t.txbuf = s.txbuf
  rxbuf : t.rxbuf = s.rxbuf
  failcnt : t.failcnt = s.failcnt
  ppm : t.ppm = s.ppm
  status : t.status = s.status
  lastOp : t.lastOp = s.lastOp

theorem SameRegisters.refuseRequest (s : State) : SameRegisters s (refuseRequest s) := by
  constructor <;> rfl

theorem SameRegisters.beginStep_nextTurn (a : ChanAnswer) (s : State) : SameRegisters s (beginStep a (nextTurn s).2) := by
  constructor <;> simp

/-- A turn of the host, the device or the line: the registers, the event and the history stay; the host leaves the streams
too. -/
structure OutsideMove (s t : State) : Prop where
  registers : SameRegisters s t
  refused : t.refused = s.refused
  history : t.history = s.history
  streams : (∃ w, (nextTurn s).1 = .hostPresents w) ∨ (nextTurn s).1 = .hostReadsPpm →
    t.txStream = s.txStream ∧ t.rxStream = s.rxStream

/-- A step is a move of the block, a reset, or a move outside the block. -/
theorem step_by_kind {s t : State} (h : step s = .next t) :
    (∃ a, (nextTurn s).1 = .transceiver a ∧ BlockMove (beginStep a (nextTurn s).2) t) ∨
    (∃ n, (nextTurn s).1 = .reset n ∧ t = resetBlock n (nextTurn s).2) ∨
    OutsideMove s t := by
  obtain ⟨ts, n, hu, ⟨a, h1, hm⟩ | ⟨w, h1, rfl⟩ | ⟨h1, -, rfl⟩ | ⟨bs, h1, rfl⟩ | ⟨k, h1, rfl⟩ | ⟨k, b, h1, rfl⟩ |
    ⟨k, h1, rfl⟩ | ⟨k, h1, rfl⟩⟩ := step_cases h
  · exact .inl ⟨a, h1, hu ▸ hm⟩
  · exact .inr (.inr ⟨by constructor <;> rfl, rfl, rfl, fun _ => ⟨rfl, rfl⟩⟩)
  · exact .inr (.inr ⟨by constructor <;> rfl, rfl, rfl, fun _ => ⟨rfl, rfl⟩⟩)
  · exact .inr (.inr ⟨by constructor <;> rfl, rfl, rfl, by simp [h1]⟩)
  · exact .inr (.inr ⟨by constructor <;> rfl, rfl, rfl, by simp [h1]⟩)
  · exact .inr (.inr ⟨by constructor <;> rfl, rfl, rfl, by simp [h1]⟩)
  · exact .inr (.inr ⟨by constructor <;> rfl, rfl, rfl, by simp [h1]⟩)
  · exact .inr (.inl ⟨k, h1, by rw [hu]⟩)

/-! ## The latch -/

/-- Of the commands READ alone has its opcode. -/
theorem cmdOp_eq_opRead_iff {s : State} {i : Instr} (h : latched s = some i) : s.cmdOp = Config.opRead ↔ i = .read := by
  have hf := (latched_eq_some_iff s i).1 h
  cases i with
  | openOp => cases hf
  | closeOp => cases hf
  | readReply => cases hf
  | read => simp [← (Prod.mk.inj (Option.some.inj hf)).1]
  | zero => simp [← (Prod.mk.inj (Option.some.inj hf)).1, Config.opRead, Config.opZero]
  | span => simp [← (Prod.mk.inj (Option.some.inj hf)).1, Config.opRead, Config.opSpan]
  | abc => simp [← (Prod.mk.inj (Option.some.inj hf)).1, Config.opRead, Config.opAbc]
  | range2000 => simp [← (Prod.mk.inj (Option.some.inj hf)).1, Config.opRead, Config.opRange]
  | range5000 => simp [← (Prod.mk.inj (Option.some.inj hf)).1, Config.opRead, Config.opRange]

/-- After an acceptance the latch holds the command accepted. -/
theorem latched_of_fields {s : State} {i : Instr} {op : Byte} {arg : U16} (h : commandFields i = some (op, arg))
    (hop : s.cmdOp = op) (harg : s.cmdArg = arg) : latched s = some i := by
  rw [latched_eq_some_iff, hop, harg, h]

/-! ## The invariant: what it says of a running operation -/

/-- The invariant reads registers and the last operation only. -/
theorem State.Inv.of_sameRegisters {s t : State} (hs : s.Inv) (h : SameRegisters s t) : t.Inv := by
  obtain ⟨hphase, hopened, hop, harg, -, hrx, hfail, hppm, hstatus, hlast⟩ := h
  cases s
  cases t
  dsimp only at *
  subst_vars
  exact ⟨hs.busyLatch, hs.readPhases, hs.countMax, hs.countRunning, hs.countDrain, hs.untouched, hs.ended, hs.noHandle,
    hs.lastCommand, hs.errConn, hs.errIo, hs.errCsum, hs.readOk⟩

/-- A block in TX runs the command of its latch. -/
theorem State.Inv.running {s : State} {i : Instr} (hs : s.Inv) (hp : s.phase = .tx) (hl : latched s = some i) :
    s.opened = true ∧ s.status = .none ∧ s.lastOp = some i := by
  obtain ⟨ho, hst, -, hop⟩ := hs.busyLatch (by simp [hp])
  exact ⟨ho, hst, hop ▸ hl⟩

/-- A block in a phase after TX runs READ. -/
theorem State.Inv.running_read {s : State} (hs : s.Inv) (hi : s.phase ≠ .idle) (ht : s.phase ≠ .tx) :
    s.opened = true ∧ s.status = .none ∧ s.lastOp = some .read ∧ latched s = some .read := by
  obtain ⟨ho, hst, -, hop⟩ := hs.busyLatch hi
  have hr := hs.readPhases hi ht
  exact ⟨ho, hst, hr, hop.trans hr⟩

/-! ## The invariant: how a state comes to satisfy it -/

/-- The block as reset leaves it. -/
theorem State.Inv.of_untouched {s : State} (hp : s.phase = .idle) (ho : s.opened = false) (hst : s.status = .none)
    (hc : s.failcnt = 0) (hop : s.lastOp = none) : s.Inv := by
  constructor <;> simp [hp, ho, hst, hc, hop]

/-- A block that runs the command `i`. -/
theorem State.Inv.of_busy {s : State} {i : Instr} (hp : s.phase ≠ .idle) (ho : s.opened = true)
    (hst : s.status = .none) (hop : s.lastOp = some i) (hl : latched s = some i) (hread : s.phase ≠ .tx → i = .read)
    (hmax : s.failcnt.toNat ≤ 9) (hrun : s.phase ≠ .drain → i = .read → s.failcnt.toNat ≤ 8)
    (hdrain : s.phase = .drain → 1 ≤ s.failcnt.toNat) : s.Inv where
  busyLatch _ := ⟨ho, hst, by simp [hop], hl.trans hop.symm⟩
  readPhases _ ht := by rw [hop, hread ht]
  countMax := hmax
  countRunning _ hd hr := hrun hd (by simpa [hop] using hr)
  countDrain := hdrain
  untouched h := by simp [hop] at h
  ended h := absurd h hp
  noHandle h := by simp [ho] at h
  lastCommand := .inr (.inr (.inr (hl.trans hop.symm)))
  errConn h := by simp [hst] at h
  errIo h := by simp [hst] at h
  errCsum h := by simp [hst] at h
  readOk h := by simp [hst] at h

/-- A block whose command `i` has ended, well or in one of the errors of a command. -/
theorem State.Inv.of_commandEnded {s : State} {i : Instr} (hp : s.phase = .idle) (ho : s.opened = true)
    (hop : s.lastOp = some i) (hl : latched s = some i) (hmax : s.failcnt.toNat ≤ 9)
    (hend : s.status = .ok ∧ (i = .read → classify s.rxbuf = .relevant s.ppm ∧ s.failcnt = 0) ∨ s.status = .errIo ∨
      s.status = .errCsum ∧ i = .read ∧ s.failcnt = 9) : s.Inv where
  busyLatch h := absurd hp h
  readPhases h := absurd hp h
  countMax := hmax
  countRunning h := absurd hp h
  countDrain h := by simp [hp] at h
  untouched h := by simp [hop] at h
  ended _ _ h := by simp [h] at hend
  noHandle h := by simp [ho] at h
  lastCommand := .inr (.inr (.inr (hl.trans hop.symm)))
  errConn h := by simp [h] at hend
  errIo _ := ⟨by simp [hop], hl.trans hop.symm⟩
  errCsum h := by simpa [h, hop] using hend
  readOk h hr := by
    have hi : i = .read := by simpa [hop] using hr
    simpa [h, hi] using hend

/-- A block whose last operation was OPEN or CLOSE. -/
theorem State.Inv.of_handleOperation {s : State} (hp : s.phase = .idle) (hmax : s.failcnt.toNat ≤ 9)
    (hop : s.lastOp = some .openOp ∨ s.lastOp = some .closeOp)
    (hend : s.status = .ok ∨ s.status = .errConn ∧ s.lastOp = some .openOp ∧ s.opened = false) : s.Inv where
  busyLatch h := absurd hp h
  readPhases h := absurd hp h
  countMax := hmax
  countRunning h := absurd hp h
  countDrain h := by simp [hp] at h
  untouched h := by simp [h] at hop
  ended _ _ h := by simp [h] at hend
  noHandle _ := .inr hop
  lastCommand := .inr (hop.imp_right .inl)
  errConn h := by simpa [h] using hend
  errIo h := by simp [h] at hend
  errCsum h := by simp [h] at hend
  readOk _ hr := by simp [hr] at hop

/-- A READ that goes on, other than into DRAIN: the limit test of DRAIN, or the count it ran with, bounds `FAILCNT`. -/
theorem State.Inv.read_goes_on {s t : State} (hs : s.Inv) (hi : s.phase ≠ .idle) (hread : s.lastOp = some .read)
    (hlimit : s.phase = .drain → s.failcnt.toNat ≤ 8) (hp : t.phase ≠ .idle) (hd : t.phase ≠ .drain)
    (hsame : t.opened = s.opened ∧ t.status = s.status ∧ t.lastOp = s.lastOp ∧ latched t = latched s ∧
      t.failcnt = s.failcnt) : t.Inv := by
  obtain ⟨hopened, hstatus, hlast, hlatch, hcount⟩ := hsame
  obtain ⟨ho, hst, -, hl⟩ := hs.busyLatch hi
  have hc : t.failcnt.toNat ≤ 8 := by
    rw [hcount]
    by_cases h : s.phase = .drain
    · exact hlimit h
    · exact hs.countRunning hi h hread
  exact .of_busy hp (hopened.trans ho) (hstatus.trans hst) (hlast.trans hread) (hlatch.trans (hl.trans hread))
    (fun _ => rfl) (by omega) (fun _ _ => hc) (fun h => absurd h hd)

/-! ## The invariant: every step keeps it -/

/-- `FAILCNT` does not wrap while it is at most 8. -/
theorem failcnt_succ_toNat {c : BitVec 4} (h : c.toNat ≤ 8) : (c + 1).toNat = c.toNat + 1 := by
  bv_omega

theorem State.Inv.resetBlock (n : Nat) (s : State) : (resetBlock n s).Inv := by
  obtain ⟨hp, ho, hst, hc, hop, -⟩ := resetBlock_fields n s
  exact .of_untouched hp ho hst hc hop

theorem BlockMove.keeps_inv {s t : State} (h : BlockMove s t) (hs : s.Inv) : t.Inv := by
  have hmax := hs.countMax
  cases h with
  | waiting => exact hs
  | rxBlocked => exact hs
  | refused => exact hs.of_sameRegisters (.refuseRequest s)
  | accepted w i op arg _ _ _ ho hf =>
    refine .of_busy (i := i) (by simp) ho rfl rfl (latched_of_fields hf rfl rfl) (by simp) ?_ ?_ (by simp)
    · by_cases hi : i = .read
      · simp [hi]
      · simpa [hi] using hmax
    · intro _ hi
      simp [hi]
  | openOk _ hp => exact .of_handleOperation hp hmax (.inl rfl) (.inl rfl)
  | openFail _ hp _ _ ho => exact .of_handleOperation hp hmax (.inl rfl) (.inr ⟨rfl, rfl, ho⟩)
  | closed _ hp => exact .of_handleOperation hp hmax (.inr rfl) (.inl rfl)
  | txRead f i hp hl _ _ hop =>
    obtain rfl := (cmdOp_eq_opRead_iff hl).1 hop
    obtain ⟨-, -, hlast⟩ := hs.running hp hl
    exact hs.read_goes_on (by simp [hp]) hlast (by simp [hp]) (by simp) (by simp) ⟨rfl, rfl, rfl, rfl, rfl⟩
  | txDone f i hp hl _ _ hop =>
    obtain ⟨ho, -, hlast⟩ := hs.running hp hl
    exact .of_commandEnded rfl ho hlast hl hmax (.inl ⟨rfl, fun hi => absurd ((cmdOp_eq_opRead_iff hl).2 hi) hop⟩)
  | txFail f i n hp hl =>
    obtain ⟨ho, -, hlast⟩ := hs.running hp hl
    exact .of_commandEnded rfl ho hlast hl hmax (.inr (.inl rfl))
  | settle hp =>
    have hread := hs.readPhases (by simp [hp]) (by simp [hp])
    exact hs.read_goes_on (by simp [hp]) hread (by simp [hp]) (by simp) (by simp) ⟨rfl, rfl, rfl, rfl, rfl⟩
  | rxFail n hp =>
    obtain ⟨ho, -, hlast, hl⟩ := hs.running_read (by simp [hp]) (by simp [hp])
    exact .of_commandEnded rfl ho hlast hl hmax (.inr (.inl rfl))
  | rxCorrupt f rest hp =>
    obtain ⟨ho, hst, hlast, hl⟩ := hs.running_read (by simp [hp]) (by simp [hp])
    have hc : s.failcnt.toNat ≤ 8 := hs.countRunning (by simp [hp]) (by simp [hp]) hlast
    have hsucc : (s.failcnt + 1).toNat = s.failcnt.toNat + 1 := failcnt_succ_toNat hc
    exact .of_busy (by simp) ho hst hlast hl (fun _ => rfl) (hsucc.trans_le (by omega)) (by simp)
      (fun _ => hsucc.symm ▸ by omega)
  | rxIrrelevant f rest hp =>
    have hread := hs.readPhases (by simp [hp]) (by simp [hp])
    exact hs.read_goes_on (by simp [hp]) hread (by simp [hp]) (by simp) (by simp) ⟨rfl, rfl, rfl, rfl, rfl⟩
  | rxRelevant f rest p hp _ _ hc =>
    obtain ⟨ho, -, hlast, hl⟩ := hs.running_read (by simp [hp]) (by simp [hp])
    exact .of_commandEnded rfl ho hlast hl (by simp) (.inl ⟨rfl, fun _ => ⟨hc, rfl⟩⟩)
  | drainLimit gone rest hp _ hc =>
    obtain ⟨ho, -, hlast, hl⟩ := hs.running_read (by simp [hp]) (by simp [hp])
    exact .of_commandEnded rfl ho hlast hl hmax (.inr (.inr ⟨rfl, rfl, by bv_omega⟩))
  | drainOn gone rest hp _ hc =>
    have hread := hs.readPhases (by simp [hp]) (by simp [hp])
    exact hs.read_goes_on (by simp [hp]) hread (fun _ => hc) (by simp) (by simp) ⟨rfl, rfl, rfl, rfl, rfl⟩
  | backoff hp =>
    have hread := hs.readPhases (by simp [hp]) (by simp [hp])
    exact hs.read_goes_on (by simp [hp]) hread (by simp [hp]) (by simp) (by simp) ⟨rfl, rfl, rfl, rfl, rfl⟩

/-- Settles O44: each row of the block's move keeps the invariant, a reset establishes it, and the other turns leave what it
speaks of. -/
theorem everyStepKeepsTheInvariant : Obligations.EveryStepKeepsTheInvariant := by
  intro s t hs h
  obtain ⟨a, -, hm⟩ | ⟨n, -, rfl⟩ | ho := step_by_kind h
  · exact hm.keeps_inv (hs.of_sameRegisters (.beginStep_nextTurn a s))
  · exact .resetBlock n _
  · exact hs.of_sameRegisters ho.registers

/-! ## The handle -/

/-- Of the block's moves only a good OPEN and a CLOSE change `OPENED`. -/
theorem BlockMove.opened_changes {s t : State} (h : BlockMove s t) (hne : t.opened ≠ s.opened) :
    s.phase = .idle ∧ t.status = .ok ∧ ∃ w, s.req = some w ∧
      (decodeRequest w = .ok .openOp ∧ t.opened = true ∨ decodeRequest w = .ok .closeOp ∧ t.opened = false) := by
  cases h with
  | openOk w hp hr hd => exact ⟨hp, rfl, w, hr, .inl ⟨hd, rfl⟩⟩
  | closed w hp hr hd => exact ⟨hp, rfl, w, hr, .inr ⟨hd, rfl⟩⟩
  | _ => exact absurd rfl hne

/-- Settles O38, by the block's rows; the turns outside the block leave the handle. -/
theorem theHandleMovesByOpenAndCloseOnly : Obligations.TheHandleMovesByOpenAndCloseOnly := by
  intro s t h hne
  obtain ⟨a, -, hm⟩ | ⟨n, hn, -⟩ | ho := step_by_kind h
  · exact .inr (by simpa using hm.opened_changes (by simpa using hne))
  · exact .inl ⟨n, hn⟩
  · exact absurd ho.registers.opened hne

/-! ## The other agents -/

/-- Settles O40: a step that is neither the block's nor a reset is a move outside the block. -/
theorem otherAgentsLeaveTheBlock : Obligations.OtherAgentsLeaveTheBlock := by
  intro s t h hblock hreset
  obtain ⟨a, ha, -⟩ | ⟨n, hn, -⟩ | ⟨hregs, hrefused, hhistory, hstreams⟩ := step_by_kind h
  · exact absurd ha (hblock a)
  · exact absurd hn (hreset n)
  · exact ⟨hregs.phase, hregs.opened, hregs.cmdOp, hregs.cmdArg, hregs.txbuf, hregs.rxbuf, hregs.failcnt, hregs.ppm,
      hregs.status, hrefused, hhistory, hregs.lastOp, hstreams⟩

/-! ## Reset -/

theorem step_of_reset_turn {s : State} {n : Nat} {ts : List Turn} (h : s.turns = .reset n :: ts) :
    step s = .next (resetBlock n { s with turns := ts }) := by
  simp only [step, nextTurn_of_turns_cons h]

/-- 70_reset_and_hazards.md R136: a reset moves in the streams only what the primitive of the phase had moved. -/
theorem resetBlock_streams (n : Nat) (s : State) :
    (s.phase ≠ .tx → (resetBlock n s).txStream = s.txStream) ∧
    (s.phase = .tx → ∀ f, commandFrame s.cmdOp s.cmdArg = some f →
      (resetBlock n s).txStream = s.txStream ++ (frameBytes f).take n) ∧
    (s.phase ≠ .rx → s.phase ≠ .drain → (resetBlock n s).rxStream = s.rxStream) ∧
    (s.phase = .rx → (resetBlock n s).rxStream = s.rxStream.drop (min n 8)) ∧
    (s.phase = .drain → (resetBlock n s).rxStream = s.rxStream.drop n) := by
  simp only [resetBlock, abandonPrimitive]
  cases s.phase with
  | tx => cases commandFrame s.cmdOp s.cmdArg <;> simp
  | rx => simp [Config.frameLen]
  | _ => simp

/-- Settles O41, from the fields and the streams of `resetBlock`. -/
theorem resetAbandonsTheOperation : Obligations.ResetAbandonsTheOperation := by
  intro s t n ts hturn h
  rw [step_of_reset_turn hturn] at h
  cases h
  obtain ⟨hp, ho, hst, hc, hop, -, hrefused, hreq⟩ := resetBlock_fields n { s with turns := ts }
  exact ⟨hp, ho, hst, hc, hrefused, hreq, hop, resetBlock_streams n { s with turns := ts }⟩

/-- The grammar speaks of a READ's history only. -/
theorem ReadGrammar.of_not_read {s : State} (h : s.lastOp ≠ some .read) : ReadGrammar s :=
  fun hread => absurd hread h

/-- Settles O43: the reset state is an untouched block that has accepted no READ. -/
theorem resetIsASafeState : Obligations.ResetIsASafeState :=
  ⟨.of_untouched rfl rfl rfl rfl rfl, .of_not_read nofun, rfl, rfl, rfl, rfl⟩

/-! ## The host's read of `PPM` -/

theorem ppmMeaningful_iff (s : State) : ppmMeaningful s = true ↔ s.status = .ok ∧ s.lastOp = some .read := by
  simp [ppmMeaningful]

theorem step_of_hostReadsPpm_turn {s : State} {ts : List Turn} (h : s.turns = .hostReadsPpm :: ts) :
    step s = hostReadsPpm { s with turns := ts } := by
  simp only [step, nextTurn_of_turns_cons h]

theorem hostReadsPpm_of_meaningful {s : State} (h : s.status = .ok ∧ s.lastOp = some .read) :
    hostReadsPpm s = .next { s with hostPpm := some s.ppm } :=
  if_pos ((ppmMeaningful_iff s).2 h)

theorem hostReadsPpm_of_not_meaningful {s : State} (h : ¬ (s.status = .ok ∧ s.lastOp = some .read)) :
    hostReadsPpm s = .fault .ppmNotMeaningful :=
  if_neg (mt (ppmMeaningful_iff s).1 h)

/-- 41_frame_codec.md R79: the decoder reads a value exactly from a relevant frame. -/
theorem decodeReadReply_eq_some_iff (f : Frame) (p : U16) : decodeReadReply f = some p ↔ classify f = .relevant p := by
  have hh : hdrOk f = true ↔ f.b0 = Config.start ∧ f.b1 = Config.ackRead := hdrOk_eq_true_iff f
  simp only [decodeReadReply, classify, ← and_assoc, ← hh, ← csumOk_eq_true_iff]
  cases csumOk f with
  | false => simp
  | true => cases hdrOk f <;> simp

/-- Settles O42; the value is validated by the invariant's clause on a READ that ended well. -/
theorem hostGetsOnlyValidatedPpm : Obligations.HostGetsOnlyValidatedPpm := by
  intro s ts hturn
  rw [step_of_hostReadsPpm_turn hturn]
  refine ⟨fun hst hop => hostReadsPpm_of_meaningful ⟨hst, hop⟩, fun h => hostReadsPpm_of_not_meaningful h, ?_⟩
  intro hs hst hop
  exact (decodeReadReply_eq_some_iff s.rxbuf s.ppm).2 (hs.readOk hst hop).1

/-! ## Codes and the schedule -/

/-- Settles O14: the three code tables, evaluated. -/
theorem phaseAndStatusCodes : Obligations.PhaseAndStatusCodes :=
  ⟨rfl, rfl, rfl⟩

/-- Settles O17, one equation of `nextTurn` a case. -/
theorem turnsComeFromTheSchedule : Obligations.TurnsComeFromTheSchedule :=
  fun _ => ⟨fun _ _ => nextTurn_of_turns_cons, fun _ _ => nextTurn_of_again_cons, nextTurn_of_no_schedule⟩

end Sys2Proof.Machine
end

section
/-! The statements of 20_memory.md: where the block's step moves the two streams, and the read that waits. -/

namespace Sys2Proof.Machine

/-! ## The streams -/

theorem step_of_transceiver_turn {s : State} {a : ChanAnswer} {ts : List Turn} (h : s.turns = .transceiver a :: ts) :
    step s = transceiver (beginStep a { s with turns := ts }) := by
  simp only [step, nextTurn_of_turns_cons h]

/-- 20_memory.md R36: TX gains at most the nine bytes of one frame, and in phase TX only. -/
theorem BlockMove.txStream_append {s t : State} (h : BlockMove s t) :
    ∃ sent, t.txStream = s.txStream ++ sent ∧ sent.length ≤ 9 ∧ (s.phase ≠ .tx → sent = []) := by
  cases h with
  | txRead f _ hp => exact ⟨frameBytes f, rfl, (frameBytes_length f).le, absurd hp⟩
  | txDone f _ hp => exact ⟨frameBytes f, rfl, (frameBytes_length f).le, absurd hp⟩
  | txFail f _ n hp => exact ⟨(frameBytes f).take n, rfl, List.length_take_le' n (frameBytes f), absurd hp⟩
  | _ => exact ⟨[], (List.append_nil _).symm, Nat.zero_le 9, fun _ => rfl⟩

/-- 20_memory.md R37, R38: RX loses a front part only, of at most nine bytes in phase RX, and none outside RX and DRAIN. -/
theorem BlockMove.rxStream_front {s t : State} (h : BlockMove s t) :
    ∃ gone, s.rxStream = gone ++ t.rxStream ∧ (s.phase = .rx → gone.length ≤ 9) ∧
      (s.phase ≠ .rx → s.phase ≠ .drain → gone = []) := by
  cases h with
  | rxFail n hp =>
    have hlen : (s.rxStream.take (min n 8)).length ≤ 9 := by
      rw [List.length_take]; omega
    exact ⟨s.rxStream.take (min n 8), (List.take_append_drop _ _).symm, fun _ => hlen, absurd hp⟩
  | rxCorrupt f _ hp _ hs => exact ⟨frameBytes f, hs, fun _ => (frameBytes_length f).le, absurd hp⟩
  | rxIrrelevant f _ hp _ hs => exact ⟨frameBytes f, hs, fun _ => (frameBytes_length f).le, absurd hp⟩
  | rxRelevant f _ _ hp _ hs => exact ⟨frameBytes f, hs, fun _ => (frameBytes_length f).le, absurd hp⟩
  | drainLimit gone _ hp hs => exact ⟨gone, hs, by simp [hp], fun _ hd => absurd hp hd⟩
  | drainOn gone _ hp hs => exact ⟨gone, hs, by simp [hp], fun _ hd => absurd hp hd⟩
  | _ => exact ⟨[], rfl, fun _ => Nat.zero_le 9, fun _ _ => rfl⟩

/-- Settles O39, by what each of the block's rows does to either stream. -/
theorem streamsMoveWhereTheTableSays : Obligations.StreamsMoveWhereTheTableSays := by
  intro s t a ts hturn h
  rw [step_of_transceiver_turn hturn] at h
  have hm : BlockMove (beginStep a { s with turns := ts }) t := transceiver_cases h
  exact ⟨hm.txStream_append, hm.rxStream_front⟩

/-! ## The read that waits -/

theorem exec_read_of_rx {s : State} (hp : s.phase = .rx) : exec .read s = .next (rxStep s) := by
  simp only [exec, execRead, hp]

theorem chRead_of_short {s : State} (hr : s.chan.readErr = none) (hl : s.rxStream.length < 9) : chRead s = .blocked := by
  have hnone : takeFrame s.rxStream = none := (takeFrame_eq_none_iff s.rxStream).2 hl
  simp only [chRead, hr, hnone]

theorem rxStep_of_short {s : State} (hr : s.chan.readErr = none) (hl : s.rxStream.length < 9) : rxStep s = s := by
  simp only [rxStep, chRead_of_short hr hl]

/-- Settles O31: no frame comes off a stream of fewer than nine bytes, so `ChRead` has no step. -/
theorem readWaitsForNineBytes : Obligations.ReadWaitsForNineBytes := by
  intro s hp hr hl
  rw [exec_read_of_rx hp, rxStep_of_short hr hl]

end Sys2Proof.Machine
end

section
/-! The statements of 30_encoding.md. First what the two decoders accept, as equivalences in the fields of a word; then a
masked word, field by field; then the statements. -/

namespace Sys2Proof

/-! ## What the decoders accept -/

/-- 30_encoding.md R59: the request decoder accepts `kind` 0 with the fields of a command, and `kind` 1 and 2. -/
theorem decodeRequest_eq_ok_iff (w : HReq) (i : Instr) :
    decodeRequest w = .ok i ↔
      (reqKind w = 0 ∧ commandFields i = some (reqOp w, reqArg w)) ∨ (reqKind w = 1 ∧ i = .openOp) ∨
        (reqKind w = 2 ∧ i = .closeOp) := by
  unfold decodeRequest
  split
  · next hk => simp [hk, decodeCommand_eq_ok_iff]
  · split
    · next hk => simp [hk, eq_comm]
    · split
      · next hk => simp [hk, eq_comm]
      · next h0 h1 h2 => simp only [h0, h1, h2, false_and, or_self, reduceCtorEq]

theorem encode_of_commandFields {i : Instr} {op : Byte} {arg : U16} (h : commandFields i = some (op, arg)) :
    encode i = .request (makeReq 0 op arg) := by
  cases i <;> cases h <;> rfl

/-- 30_encoding.md R54: the header selects the row, and every other offset is an operand. -/
@[simp] theorem decodeReply_replyFrame (ppm : U16) (d4 d5 d6 d7 cs : Byte) :
    decodeReply (replyFrame ppm d4 d5 d6 d7 cs) = .ok (.readReply ppm d4 d5 d6 d7 cs) := by
  simp [decodeReply, replyFrame]

/-! ## A masked word, field by field -/

theorem makeReq_fields (w : HReq) : makeReq (reqKind w) (reqOp w) (reqArg w) = w := by
  have hhead : reqKind w ++ reqOp w = w.extractLsb' 16 10 := BitVec.extractLsb'_append_extractLsb'_eq_extractLsb' rfl
  calc makeReq (reqKind w) (reqOp w) (reqArg w)
      = w.extractLsb' 16 10 ++ w.extractLsb' 0 16 := congrArg (· ++ reqArg w) hhead
    _ = w.extractLsb' 0 26 := BitVec.extractLsb'_append_extractLsb'_eq_extractLsb' rfl
    _ = w := BitVec.extractLsb'_eq_self

theorem makeReq_inj {k k' : BitVec 2} {o o' : Byte} {a a' : U16} :
    makeReq k o a = makeReq k' o' a' ↔ k = k' ∧ o = o' ∧ a = a' := by
  constructor
  · intro h
    exact ⟨by simpa using congrArg reqKind h, by simpa using congrArg reqOp h, by simpa using congrArg reqArg h⟩
  · rintro ⟨rfl, rfl, rfl⟩; rfl

theorem makeReq_and_makeReq (k k' : BitVec 2) (o o' : Byte) (a a' : U16) :
    makeReq k o a &&& makeReq k' o' a' = makeReq (k &&& k') (o &&& o') (a &&& a') :=
  (BitVec.and_append (w := 2 + 8)).trans (congrArg (· ++ (a &&& a')) BitVec.and_append)

/-- A word agrees with a row's match under its mask exactly when each of its three fields does. -/
theorem and_makeReq_eq_iff (w : HReq) (mk vk : BitVec 2) (mo vo : Byte) (ma va : U16) :
    w &&& makeReq mk mo ma = makeReq vk vo va ↔
      reqKind w &&& mk = vk ∧ reqOp w &&& mo = vo ∧ reqArg w &&& ma = va := by
  conv_lhs => rw [← makeReq_fields w]
  rw [makeReq_and_makeReq, makeReq_inj]

/-- The rows of OPEN and CLOSE: `kind` alone counts. -/
theorem kindRow_iff (w : HReq) (k : BitVec 2) : w &&& 0x3000000 = makeReq k 0 0 ↔ reqKind w = k := by
  have hm : (0x3000000 : HReq) = makeReq (BitVec.allOnes 2) 0 0 := rfl
  simp only [hm, and_makeReq_eq_iff, BitVec.and_allOnes, BitVec.ofNat_eq_ofNat, BitVec.and_zero, and_true]

/-- The rows of a single word. -/
theorem wordRow_iff (w : HReq) (op : Byte) (arg : U16) :
    w &&& 0x3FFFFFF = makeReq 0 op arg ↔ reqKind w = 0 ∧ reqOp w = op ∧ reqArg w = arg := by
  have hm : (0x3FFFFFF : HReq) = makeReq (BitVec.allOnes 2) (BitVec.allOnes 8) (BitVec.allOnes 16) := rfl
  simp only [hm, and_makeReq_eq_iff, BitVec.and_allOnes, BitVec.ofNat_eq_ofNat]

/-- The row of SPAN: any argument. -/
theorem opcodeRow_iff (w : HReq) (op : Byte) :
    w &&& 0x3FF0000 = makeReq 0 op 0 ↔ reqKind w = 0 ∧ reqOp w = op := by
  have hm : (0x3FF0000 : HReq) = makeReq (BitVec.allOnes 2) (BitVec.allOnes 8) 0 := rfl
  simp only [hm, and_makeReq_eq_iff, BitVec.and_allOnes, BitVec.ofNat_eq_ofNat, BitVec.and_zero, and_true]

/-- The row of ABC: bit 0 of the argument is free. -/
theorem flagRow_iff (w : HReq) (op : Byte) :
    w &&& 0x3FFFFFE = makeReq 0 op 0 ↔ reqKind w = 0 ∧ reqOp w = op ∧ reqArg w &&& 0xFFFE = 0 := by
  have hm : (0x3FFFFFE : HReq) = makeReq (BitVec.allOnes 2) (BitVec.allOnes 8) 0xFFFE := rfl
  simp only [hm, and_makeReq_eq_iff, BitVec.and_allOnes, BitVec.ofNat_eq_ofNat]

/-- A 16-bit value is the numeral of a flag exactly when bit 0 is the flag and the other bits are zero. -/
theorem eq_flag_iff (a : U16) (e : Bool) : a = (if e then 1 else 0) ↔ a &&& 0xFFFE = 0 ∧ e = a.getLsbD 0 := by
  constructor
  · rintro rfl
    cases e <;> decide
  · rintro ⟨hhigh, rfl⟩
    calc a = (a &&& 0xFFFE) ||| (a &&& 1#16) := by
            rw [← BitVec.and_or_distrib_left]; exact BitVec.and_allOnes.symm
      _ = (BitVec.ofBool (a.getLsbD 0)).setWidth 16 := by
            rw [hhigh, BitVec.and_one_eq_setWidth_ofBool_getLsbD]; exact BitVec.zero_or
      _ = if a.getLsbD 0 then 1 else 0 := by cases a.getLsbD 0 <;> rfl

theorem reqArg_getLsbD_zero (w : HReq) : (reqArg w).getLsbD 0 = w.getLsbD 0 := by
  simp [reqArg]

/-! ## The rows of the table -/

/-- A command word decodes to the command of its fields. -/
theorem decodeRequest_eq_command_iff (w : HReq) {i : Instr} {op : Byte} {arg : U16}
    (h : commandFields i = some (op, arg)) :
    decodeRequest w = .ok i ↔ reqKind w = 0 ∧ reqOp w = op ∧ reqArg w = arg := by
  have hopen : i ≠ .openOp := by rintro rfl; cases h
  have hclose : i ≠ .closeOp := by rintro rfl; cases h
  rw [decodeRequest_eq_ok_iff, h]
  simp [hopen, hclose, eq_comm]

theorem decodeRequest_eq_openOp_iff (w : HReq) : decodeRequest w = .ok .openOp ↔ reqKind w = 1 := by
  simp [decodeRequest_eq_ok_iff, commandFields]

theorem decodeRequest_eq_closeOp_iff (w : HReq) : decodeRequest w = .ok .closeOp ↔ reqKind w = 2 := by
  simp [decodeRequest_eq_ok_iff, commandFields]

theorem decodeRequest_ne_readReply (w : HReq) (ppm : U16) (d4 d5 d6 d7 cs : Byte) :
    decodeRequest w ≠ .ok (.readReply ppm d4 d5 d6 d7 cs) := by
  simp [decodeRequest_eq_ok_iff, commandFields]

theorem decodeRequest_eq_span_iff (w : HReq) (target : U16) :
    decodeRequest w = .ok (.span target) ↔ w &&& 0x3FF0000 = 0x0880000 ∧ target = w.extractLsb' 0 16 := by
  have hrow : w &&& 0x3FF0000 = 0x0880000 ↔ reqKind w = 0 ∧ reqOp w = Config.opSpan := opcodeRow_iff w Config.opSpan
  rw [decodeRequest_eq_command_iff w rfl, hrow, and_assoc, eq_comm (a := target)]
  rfl

theorem decodeRequest_eq_abc_iff (w : HReq) (e : Bool) :
    decodeRequest w = .ok (.abc e) ↔ w &&& 0x3FFFFFE = 0x0790000 ∧ e = w.getLsbD 0 := by
  have hrow : w &&& 0x3FFFFFE = 0x0790000 ↔ reqKind w = 0 ∧ reqOp w = Config.opAbc ∧ reqArg w &&& 0xFFFE = 0 :=
    flagRow_iff w Config.opAbc
  rw [decodeRequest_eq_command_iff w rfl, hrow, eq_flag_iff, reqArg_getLsbD_zero]
  simp only [and_assoc]

/-! ## The statements about words -/

/-- Settles O11: a command through its fields; OPEN, CLOSE and the reply by their own words. -/
theorem decodeOfEncodeIsTheInstruction : Obligations.DecodeOfEncodeIsTheInstruction := by
  intro i
  cases hf : commandFields i with
  | some fields =>
    obtain ⟨op, arg⟩ := fields
    rw [encode_of_commandFields hf]
    exact (decodeRequest_eq_command_iff _ hf).2
      ⟨reqKind_makeReq 0 op arg, reqOp_makeReq 0 op arg, reqArg_makeReq 0 op arg⟩
  | none =>
    cases i with
    | openOp => exact (decodeRequest_eq_openOp_iff _).2 (reqKind_makeReq 1 0 0)
    | closeOp => exact (decodeRequest_eq_closeOp_iff _).2 (reqKind_makeReq 2 0 0)
    | readReply ppm d4 d5 d6 d7 cs => exact decodeReply_replyFrame ppm d4 d5 d6 d7 cs
    | _ => cases hf

/-- Settles O12, row by row: the decoder's fields and the row's mask name the same words. -/
theorem requestWordsAreTheTablesRows : Obligations.RequestWordsAreTheTablesRows := fun w =>
  ⟨(decodeRequest_eq_openOp_iff w).trans (kindRow_iff w 1).symm,
    (decodeRequest_eq_closeOp_iff w).trans (kindRow_iff w 2).symm,
    (decodeRequest_eq_command_iff w rfl).trans (wordRow_iff w Config.opRead 0).symm,
    (decodeRequest_eq_command_iff w rfl).trans (wordRow_iff w Config.opZero 0).symm,
    decodeRequest_eq_span_iff w,
    decodeRequest_eq_abc_iff w,
    (decodeRequest_eq_command_iff w rfl).trans (wordRow_iff w Config.opRange Config.range2000).symm,
    (decodeRequest_eq_command_iff w rfl).trans (wordRow_iff w Config.opRange Config.range5000).symm,
    decodeRequest_ne_readReply w⟩

/-- Settles O13: twelve words accepted, eight refused, evaluated. -/
theorem theSpecsWordsDecode : Obligations.TheSpecsWordsDecode := by
  unfold Obligations.TheSpecsWordsDecode
  decide

/-- A table word decodes as a request word or as a frame, by its size (log 6). -/
theorem decodeTableWord_cases {nbits w : Nat} {i : Instr} (h : decodeTableWord nbits w = some i) :
    (nbits ≤ 32 ∧ decodeRequest (BitVec.ofNat 26 w) = .ok i) ∨
      (¬ nbits ≤ 32 ∧ decodeReply (Machine.frameOfNum (BitVec.ofNat 72 w)) = .ok i) := by
  have ok_of_toOption : ∀ r : Except DecodeError Instr, r.toOption = some i → r = .ok i := by
    rintro (e | j) hr <;> cases hr
    rfl
  unfold decodeTableWord at h
  split at h
  · next hn =>
    split at h
    · exact .inl ⟨hn, ok_of_toOption _ h⟩
    · cases h
  · next hn =>
    split at h
    · split at h
      · exact .inr ⟨hn, ok_of_toOption _ h⟩
      · cases h
    · cases h

end Sys2Proof

namespace Sys2Proof.Machine

/-! ## The fetch -/

theorem transceiver_of_fetch_run {s : State} {i : Instr} (h : fetch s = .run i) : transceiver s = exec i s := by
  simp only [transceiver, h]

/-- In IDLE the fetch is the legal request on the port. -/
theorem fetch_of_request {s : State} {w : HReq} {i : Instr} (hp : s.phase = .idle) (hr : s.req = some w)
    (hd : decodeRequest w = .ok i) : fetch s = .run i := by
  simp only [fetch, hp, hr, hd]

theorem chRead_of_frame {s : State} {f : Frame} {rest : List Byte} (he : s.chan.readErr = none)
    (hs : s.rxStream = frameBytes f ++ rest) : chRead s = .frame f (consumeFrame f s) := by
  simp only [chRead, he, hs, takeFrame_append]

/-- In RX the fetch is the READ_REPLY at the front of the RX stream. -/
theorem fetch_of_reply {s : State} {f : Frame} {rest : List Byte} {i : Instr} (hp : s.phase = .rx)
    (he : s.chan.readErr = none) (hs : s.rxStream = frameBytes f ++ rest) (hd : decodeReply f = .ok i) :
    fetch s = .run i := by
  simp only [fetch, hp, chRead_of_frame he hs, hd]

/-! ## The word laid down -/

theorem withFetchWord_of_request (s : State) {nbits : Nat} (w : Nat) (hn : nbits ≤ 32) :
    s.withFetchWord nbits w =
      { s with phase := .idle, req := some (BitVec.ofNat 26 w), turns := .transceiver s.chan :: s.turns } :=
  if_pos hn

theorem withFetchWord_of_frame (s : State) {nbits : Nat} (w : Nat) (hn : ¬ nbits ≤ 32) :
    s.withFetchWord nbits w =
      { s with
        phase := .rx, rxStream := frameBytes (frameOfNum (BitVec.ofNat 72 w)) ++ s.rxStream,
        turns := .transceiver { s.chan with readErr := none } :: s.turns } :=
  if_neg hn

/-- Settles O16: a request word stands on the port of an idle block, a frame at the front of the RX stream in RX, and the
block's turn is next. -/
theorem placedWordIsTheNextInstruction : Obligations.PlacedWordIsTheNextInstruction := by
  intro s nbits w i h
  obtain ⟨hn, hd⟩ | ⟨hn, hd⟩ := decodeTableWord_cases h
  · rw [withFetchWord_of_request s w hn, step_of_transceiver_turn rfl,
      transceiver_of_fetch_run (fetch_of_request rfl rfl hd)]
    exact ⟨_, rfl, rfl, rfl, rfl, rfl, rfl, rfl, rfl⟩
  · rw [withFetchWord_of_frame s w hn, step_of_transceiver_turn rfl,
      transceiver_of_fetch_run (fetch_of_reply rfl rfl rfl hd)]
    exact ⟨_, rfl, rfl, rfl, rfl, rfl, rfl, rfl, rfl⟩

end Sys2Proof.Machine
end

section
/-! The statements of 40_checksum.md. The checksum test through one sum over the offsets 1 to 8, `frameTotal`: a frame passes
exactly when it is zero, and each change of a byte at those offsets moves it by the difference. -/

namespace Sys2Proof.Machine

/-! ## The checksum and the sum of the offsets 1 to 7 -/

theorem checksum_of_sum {f : Frame} {s : Byte} (h : f.b1 + f.b2 + f.b3 + f.b4 + f.b5 + f.b6 + f.b7 = s) :
    checksum f = -s := by
  rw [checksum_eq_neg, frameSum_eq, h]

@[simp] theorem checksum_frameSet_zero (f : Frame) (b : Byte) : checksum (frameSet f 0 b) = checksum f := rfl

@[simp] theorem checksum_frameSet_eight (f : Frame) (b : Byte) : checksum (frameSet f 8 b) = checksum f := rfl

/-- Settles O1: the four corner sums and the READ command's sum negated. -/
theorem checksumInvertsTheSumAndAddsOne : Obligations.ChecksumInvertsTheSumAndAddsOne := by
  refine ⟨fun f => ?_, fun f b => ⟨checksum_frameSet_zero f b, checksum_frameSet_eight f b⟩, fun f => ?_, fun x => ?_⟩
  · rw [checksum, frameSum_eq]
  · exact ⟨checksum_of_sum, checksum_of_sum, checksum_of_sum, checksum_of_sum⟩
  · exact checksum_of_sum (s := 0x87) rfl

/-! ## The sum of the offsets 1 to 8 -/

/-- The sum of the offsets 1 to 8 modulo 256 (40_checksum.md R71). -/
def frameTotal (f : Frame) : Byte := frameSum f + f.b8

theorem csumOk_iff_frameTotal_eq_zero (f : Frame) : csumOk f = true ↔ frameTotal f = 0 := by
  rw [csumOk_eq_true_iff, checksum_eq_neg, neg_eq_iff_add_eq_zero, frameTotal]

/-- Settles O2: the checksum is the sum's negation, so the test asks for a zero sum. -/
theorem checksumIsTheNegatedSum : Obligations.ChecksumIsTheNegatedSum := by
  intro f
  rw [csumOk_iff_frameTotal_eq_zero, frameTotal, checksum_eq_neg, frameSum_eq]
  exact ⟨BitVec.toNat_neg _, add_neg_cancel _, Iff.rfl⟩

theorem csumOk_congr {f g : Frame} (h : frameTotal f = frameTotal g) : csumOk f = csumOk g := by
  rw [Bool.eq_iff_iff, csumOk_iff_frameTotal_eq_zero, csumOk_iff_frameTotal_eq_zero, h]

/-! ## A byte replaced -/

theorem frameGet_frameSet (f : Frame) (i j : Fin 9) (b : Byte) :
    frameGet (frameSet f i b) j = if i = j then b else frameGet f j := by
  fin_cases i <;> fin_cases j <;> rfl

@[simp] theorem frameTotal_frameSet_zero (f : Frame) (b : Byte) : frameTotal (frameSet f 0 b) = frameTotal f := rfl

/-- Replacing a byte at one of the offsets 1 to 8 moves the sum by the difference (40_checksum.md R74, item 2). -/
theorem frameTotal_frameSet (f : Frame) {i : Fin 9} (b : Byte) (h : i ≠ 0) :
    frameTotal (frameSet f i b) = frameTotal f + (b - frameGet f i) := by
  simp only [frameTotal, frameSum_eq]
  fin_cases i
  · exact absurd rfl h
  all_goals
    simp only [frameSet, frameGet]
    ring

theorem csumOk_stamped (f : Frame) : csumOk (frameSet f 8 (checksum f)) = true :=
  (csumOk_eq_true_iff _).2 (checksum_frameSet_eight f _)

theorem csumOk_frameSet_of_ne {f : Frame} {i : Fin 9} {b : Byte} (hok : csumOk f = true) (hi : i ≠ 0)
    (hb : b ≠ frameGet f i) : csumOk (frameSet f i b) = false := by
  rw [csumOk_iff_frameTotal_eq_zero] at hok
  rw [Bool.eq_false_iff, ne_eq, csumOk_iff_frameTotal_eq_zero, frameTotal_frameSet f b hi, hok, zero_add]
  exact sub_ne_zero.2 hb

/-- What one byte gains and another loses leaves the sum (40_checksum.md R74, item 5), offset 8 included. -/
theorem frameTotal_transfer (f : Frame) {i j : Fin 9} (d : Byte) (hij : i ≠ j) (hi : i ≠ 0) (hj : j ≠ 0) :
    frameTotal (frameSet (frameSet f i (frameGet f i + d)) j (frameGet f j - d)) = frameTotal f := by
  rw [frameTotal_frameSet _ _ hj, frameTotal_frameSet _ _ hi, frameGet_frameSet, if_neg hij]
  ring

/-- Settles O3: only a change that moves the sum of the offsets 1 to 8 is found. -/
theorem checksumFindsEverySingleByteChange : Obligations.ChecksumFindsEverySingleByteChange :=
  ⟨csumOk_stamped, fun _ _ _ => csumOk_frameSet_of_ne, fun f b => csumOk_congr (frameTotal_frameSet_zero f b),
    fun f _ _ d hij hi hj _ _ => csumOk_congr (frameTotal_transfer f d hij hi hj)⟩

end Sys2Proof.Machine
end

section
/-! The statements of 41_frame_codec.md. The classes as equivalences in `csumOk` and `hdrOk`; the other statements follow
from them, from the stamped checksum of an encoded frame, and from the fields of a command, which fix its frame. -/

namespace Sys2Proof.Machine

/-! ## Classify and DecodeReadReply -/

theorem hdrOk_eq_false_iff (f : Frame) : hdrOk f = false ↔ f.b0 ≠ 0xFF ∨ f.b1 ≠ 0x86 := by
  rw [Bool.eq_false_iff, ne_eq, hdrOk_eq_true_iff, not_and_or]

/-! Each class by the outcomes of the two tests. -/

theorem classify_eq_corrupt_iff (f : Frame) : classify f = .corrupt ↔ csumOk f = false := by
  cases hc : csumOk f <;> cases hh : hdrOk f <;> simp [classify, hc, hh]

theorem classify_eq_irrelevant_iff (f : Frame) : classify f = .irrelevant ↔ csumOk f = true ∧ hdrOk f = false := by
  cases hc : csumOk f <;> cases hh : hdrOk f <;> simp [classify, hc, hh]

theorem classify_eq_relevant_iff (f : Frame) (p : U16) :
    classify f = .relevant p ↔ csumOk f = true ∧ hdrOk f = true ∧ p = ppmField f := by
  cases hc : csumOk f <;> cases hh : hdrOk f <;> simp [classify, hc, hh, eq_comm]

/-- 41_frame_codec.md R79: DecodeReadReply is invalid on the two classes without a value. -/
theorem decodeReadReply_eq_none_iff (f : Frame) :
    decodeReadReply f = none ↔ classify f = .corrupt ∨ classify f = .irrelevant := by
  rw [Option.eq_none_iff_forall_ne_some]
  simp only [ne_eq, decodeReadReply_eq_some_iff]
  obtain h | h | ⟨p, h⟩ := classify_cases f <;> simp [h]

/-- Settles O8: each class by its two tests, each test by the bytes it reads. -/
theorem classifyTestsTheChecksumFirst : Obligations.ClassifyTestsTheChecksumFirst := by
  intro f
  refine ⟨?_, ?_, fun p => ?_, decodeReadReply_eq_some_iff f, decodeReadReply_eq_none_iff f⟩
  · rw [classify_eq_corrupt_iff, csumOk_eq_false_iff]
  · rw [classify_eq_irrelevant_iff, csumOk_eq_true_iff, hdrOk_eq_false_iff]
  · rw [classify_eq_relevant_iff, csumOk_eq_true_iff, hdrOk_eq_true_iff, and_assoc]
    rfl

/-- Settles O7: the tests and the value of the relevant class, in DecodeReadReply's order. -/
theorem readReplyTestsHeaderAndChecksum : Obligations.ReadReplyTestsHeaderAndChecksum := by
  refine ⟨fun f p => ?_, fun f => ?_, by decide, by decide, by decide⟩
  · rw [decodeReadReply_eq_some_iff, classify_eq_relevant_iff, csumOk_eq_true_iff, hdrOk_eq_true_iff, and_assoc,
      and_left_comm, and_left_comm (a := checksum f = f.b8)]
    rfl
  · rw [decodeReadReply, ite_eq_right_iff, imp_iff_not (Option.some_ne_none _)]
    rfl

/-! ## A byte replaced -/

theorem classify_frameSet_eight_ne_corrupt_iff (f : Frame) (b : Byte) :
    classify (frameSet f 8 b) ≠ .corrupt ↔ b = checksum f := by
  rw [ne_eq, classify_eq_corrupt_iff, Bool.not_eq_false, csumOk_eq_true_iff, checksum_frameSet_eight, eq_comm]
  rfl

/-- Settles O9: the one byte is the checksum; the three buffers are evaluated. -/
theorem oneChecksumByteFitsEachBuffer : Obligations.OneChecksumByteFitsEachBuffer :=
  ⟨fun f => ⟨checksum f, classify_frameSet_eight_ne_corrupt_iff f⟩, by decide, by decide, by decide⟩

/-- Another start byte breaks the header and leaves the checksum as it was. -/
theorem classify_frameSet_zero {f : Frame} {b : Byte} (hc : csumOk f = true) (hb : b ≠ 0xFF) :
    classify (frameSet f 0 b) = .irrelevant :=
  (classify_eq_irrelevant_iff _).2
    ⟨(csumOk_congr (frameTotal_frameSet_zero f b)).trans hc, (hdrOk_eq_false_iff _).2 (.inl hb)⟩

/-- Settles O10: offset 0 is the header's alone, and a change at any other offset is found by the checksum. -/
theorem changedByteIsNeverAReading : Obligations.ChangedByteIsNeverAReading := by
  intro f p i b hf hb
  obtain ⟨hc, hh, -⟩ := (classify_eq_relevant_iff f p).1 hf
  rw [decodeReadReply_eq_none_iff]
  by_cases hi : i = 0
  · subst hi
    have hstart : frameGet f 0 = 0xFF := ((hdrOk_eq_true_iff f).1 hh).1
    have h := classify_frameSet_zero hc (hstart ▸ hb)
    exact ⟨.inr h, h⟩
  · have h := (classify_eq_corrupt_iff _).2 (csumOk_frameSet_of_ne hc hi hb)
    exact ⟨.inl h, by rw [if_neg hi, h]⟩

/-! ## Encode -/

/-- `Encode` stamps the checksum of the frame with a zero there (41_frame_codec.md R75). -/
theorem encodeFrame_eq_frameSet (op d1 d2 : Byte) :
    encodeFrame op d1 d2 =
      frameSet ⟨0xFF, 0x01, op, d1, d2, 0, 0, 0, 0⟩ 8 (checksum ⟨0xFF, 0x01, op, d1, d2, 0, 0, 0, 0⟩) :=
  rfl

theorem encodeFrame_eq (op d1 d2 : Byte) :
    encodeFrame op d1 d2 = ⟨0xFF, 0x01, op, d1, d2, 0x00, 0x00, 0x00, ~~~ (0x01 + op + d1 + d2) + 1⟩ := by
  simp [encodeFrame_eq_frameSet, frameSet, checksum, frameSum_eq]

/-- Settles O4: the sum of the stamped frame, and the three frames by it. -/
theorem encodeBuildsTheStampedFrame : Obligations.EncodeBuildsTheStampedFrame :=
  ⟨encodeFrame_eq, encodeFrame_eq _ _ _, encodeFrame_eq _ _ _, encodeFrame_eq _ _ _⟩

theorem csumOk_encodeFrame (op d1 d2 : Byte) : csumOk (encodeFrame op d1 d2) = true := by
  rw [encodeFrame_eq_frameSet]
  exact csumOk_stamped _

theorem hdrOk_encodeFrame (op d1 d2 : Byte) : hdrOk (encodeFrame op d1 d2) = false := rfl

/-- Settles O5: the stamp makes the checksum right, and offset 1 is a command's, not a reply's. -/
theorem encodedFramesAreIrrelevant : Obligations.EncodedFramesAreIrrelevant := by
  intro op d1 d2
  have hc := csumOk_encodeFrame op d1 d2
  have h := (classify_eq_irrelevant_iff _).2 ⟨hc, hdrOk_encodeFrame op d1 d2⟩
  exact ⟨hc, h, (decodeReadReply_eq_none_iff _).2 (.inr h)⟩

/-! ## The frame of the latched command -/

/-- The hand-written table of 30_encoding.md R59 and the encoder agree on the fields of every command. -/
theorem wireFields_eq_commandFields (i : Instr) : wireFields i = commandFields i := by
  cases i with
  | abc enabled => cases enabled <;> rfl
  | _ => rfl

/-- 30_encoding.md R53, R60 to R63: the fields of a command fix the three bytes to encode, and so the table's frame. -/
theorem commandFrame_of_commandFields {i : Instr} {op : Byte} {arg : U16} (h : commandFields i = some (op, arg)) :
    commandFrame op arg = wireFrame i := by
  have hd := (decodeCommand_eq_ok_iff op arg i).2 h
  simp only [commandFrame, operands, hd]
  cases i with
  | openOp => cases h
  | closeOp => cases h
  | readReply => cases h
  | abc enabled => cases h; cases enabled <;> rfl
  | span target =>
    cases h
    exact congrArg some (encodeFrame_eq _ _ _)
  | _ => cases h; rfl

/-- 41_frame_codec.md R77: outside the table there is no frame. -/
theorem commandFrame_of_no_command {op : Byte} {arg : U16} (h : ∀ i : Instr, commandFields i ≠ some (op, arg)) :
    commandFrame op arg = none := by
  cases hd : decodeCommand op arg with
  | ok i => exact absurd ((decodeCommand_eq_ok_iff op arg i).1 hd) (h i)
  | error e => simp only [commandFrame, operands, hd, Option.map_none]

/-- Settles O6: what the latch decodes to has the table's frame. -/
theorem latchedCommandsSendTheTablesFrames : Obligations.LatchedCommandsSendTheTablesFrames := by
  simp only [Obligations.LatchedCommandsSendTheTablesFrames, wireFields_eq_commandFields]
  exact ⟨fun _ _ _ => commandFrame_of_commandFields, fun _ _ => commandFrame_of_no_command⟩

end Sys2Proof.Machine
end

section
/-! The statements of 42_open_close.md. What OPEN and CLOSE do to an idle block, refusal included: `exec_openOp_idle` and
`exec_closeOp_idle`. -/

namespace Sys2Proof.Machine

/-! ## The ends of an operation of one step -/

theorem endOk_of_idle {s : State} (hp : s.phase = .idle) : endOk s = { s with status := .ok } := by
  rw [endOk, ← hp]

theorem raise_of_idle (e : ErrorKind) {s : State} (hp : s.phase = .idle) :
    raise e s = { s with status := errorStatus e } := by
  rw [raise, ← hp]

/-! ## OPEN and CLOSE in IDLE -/

/-- An accepted OPEN sets `OPENED` to the channel's answer. -/
theorem exec_openOp_idle {s : State} (hp : s.phase = .idle) :
    exec .openOp s = .next (if s.opened then refuseRequest s else
      { s with
        opened := s.chan.openOk, status := if s.chan.openOk then .ok else .errConn, req := none,
        lastOp := some .openOp, history := [.opened Config.uart s.chan.openOk] }) := by
  cases ho : s.opened with
  | true => simp [exec, execOpen, hp, ho]
  | false =>
    cases ha : s.chan.openOk with
    | true => simp [exec, execOpen, hp, ho, chOpen, ha, endOk_of_idle, acceptRequest]
    | false => simp [exec, execOpen, hp, ho, chOpen, ha, raise_of_idle, errorStatus, acceptRequest]

theorem exec_closeOp_idle {s : State} (hp : s.phase = .idle) :
    exec .closeOp s = .next (if s.opened then
      { s with opened := false, status := .ok, req := none, lastOp := some .closeOp, history := [.closed] }
      else refuseRequest s) := by
  cases ho : s.opened with
  | true => simp [exec, execClose, hp, ho, endOk_of_idle, chClose, acceptRequest]
  | false => simp [exec, execClose, hp, ho]

/-- Settles O24, by the two answers of `ChOpen`. -/
theorem openTakesTheHandle : Obligations.OpenTakesTheHandle := by
  intro s hp ho
  rw [exec_openOp_idle hp, ho]
  exact ⟨fun ha => by rw [ha]; rfl, fun ha => by rw [ha]; rfl⟩

/-- Settles O25: `ChClose` has no failing answer, so an accepted CLOSE has one end. -/
theorem closeGivesTheHandleBack : Obligations.CloseGivesTheHandleBack := by
  intro s hp ho
  rw [exec_closeOp_idle hp, ho, if_pos rfl]

end Sys2Proof.Machine
end

section
/-! The statements of 43_read.md, in three parts. This one: the grammar of a READ's channel history, which every row of the
block's move keeps, and the numbers of calls of a history of the grammar. -/

namespace Sys2Proof.Machine

/-! ## The history of the cycles that go on -/

theorem cyclesEvents_concat (fs : List Frame) (f : Frame) :
    cyclesEvents (fs ++ [f]) = cyclesEvents fs ++ cycleEvents f := by
  simp [cyclesEvents]

theorem corruptCount_concat (fs : List Frame) (f : Frame) :
    corruptCount (fs ++ [f]) = corruptCount fs + if classify f = .corrupt then 1 else 0 := by
  simp [corruptCount, List.countP_append, List.countP_singleton]

theorem NoneRelevant.concat {fs : List Frame} {f : Frame} (h : NoneRelevant fs)
    (hf : classify f = .corrupt ∨ classify f = .irrelevant) : NoneRelevant (fs ++ [f]) := by
  rintro g hg
  obtain hg | hg := List.mem_append.1 hg
  · exact h g hg
  · rwa [List.mem_singleton.1 hg]

theorem cycleEvents_of_corrupt {f : Frame} (h : classify f = .corrupt) :
    cycleEvents f = [wroteRead, waited, .read f, .drain, waited] :=
  if_pos h

theorem cycleEvents_of_irrelevant {f : Frame} (h : classify f = .irrelevant) :
    cycleEvents f = [wroteRead, waited, .read f, waited] :=
  if_neg (by simp [h])

/-! ## The grammar: every step keeps it -/

/-- The grammar reads registers, the last operation and the history only. -/
theorem ReadGrammar.of_sameRegisters {s t : State} (hg : ReadGrammar s) (h : SameRegisters s t)
    (hh : t.history = s.history) : ReadGrammar t := by
  unfold ReadGrammar
  rw [h.phase, h.status, h.ppm, h.failcnt, h.lastOp, hh]
  exact hg

theorem commandFrame_of_latched_read {s : State} (h : latched s = some .read) :
    commandFrame s.cmdOp s.cmdArg = some readFrame :=
  commandFrame_of_commandFields ((latched_eq_some_iff s .read).1 h)

/-- The frame a READ writes in TX is the table's. -/
theorem State.Inv.tx_frame {s : State} {f : Frame} (hs : s.Inv) (hp : s.phase = .tx) (hread : s.lastOp = some .read)
    (hf : commandFrame s.cmdOp s.cmdArg = some f) : f = readFrame := by
  obtain ⟨-, -, -, hl⟩ := hs.busyLatch (by simp [hp])
  rw [commandFrame_of_latched_read (hl.trans hread)] at hf
  exact (Option.some.inj hf).symm

/-- Each row appends to the history the event the grammar has next; a cycle is complete, and its frame joins those of the
grammar, on entering BACKOFF. -/
theorem BlockMove.keeps_readGrammar {s t : State} (h : BlockMove s t) (hs : s.Inv) (hg : ReadGrammar s) :
    ReadGrammar t := by
  cases h with
  | waiting => exact hg
  | rxBlocked => exact hg
  | refused => exact hg.of_sameRegisters (.refuseRequest s) rfl
  | openOk => exact .of_not_read (by simp)
  | openFail => exact .of_not_read (by simp)
  | closed => exact .of_not_read (by simp)
  | accepted w i =>
    intro hread
    obtain rfl : i = .read := Option.some.inj hread
    exact ⟨[], nofun, Nat.zero_le 8, rfl, rfl⟩
  | txRead f i hp hl hf hw ho =>
    intro hread
    rw [ReadGrammar, hp] at hg
    obtain ⟨fs, hnone, hle, hh, hc⟩ := hg hread
    obtain rfl := hs.tx_frame hp hread hf
    exact ⟨fs, hnone, hle, congrArg (· ++ _) hh, hc⟩
  | txDone f i hp hl hf hw ho =>
    have hrun := (hs.running hp hl).2.2
    have hi : i ≠ .read := fun hi => ho ((cmdOp_eq_opRead_iff hl).2 hi)
    exact .of_not_read (by simpa [hrun] using hi)
  | txFail f i n hp hl hf hw =>
    intro hread
    rw [ReadGrammar, hp] at hg
    obtain ⟨fs, hnone, hle, hh, hc⟩ := hg hread
    obtain rfl := hs.tx_frame hp hread hf
    exact ⟨fs, hnone, hle, hc, .inl (congrArg (· ++ _) hh)⟩
  | settle hp =>
    intro hread
    rw [ReadGrammar, hp] at hg
    obtain ⟨fs, hnone, hle, hh, hc⟩ := hg hread
    exact ⟨fs, hnone, hle, by simp [hh, waited], hc⟩
  | rxFail n hp =>
    intro hread
    rw [ReadGrammar, hp] at hg
    obtain ⟨fs, hnone, hle, hh, hc⟩ := hg hread
    exact ⟨fs, hnone, hle, hc, .inr (by simp [hh])⟩
  | rxCorrupt f rest hp _ _ hf =>
    intro hread
    rw [ReadGrammar, hp] at hg
    obtain ⟨fs, hnone, hle, hh, hc⟩ := hg hread
    have hsucc : (s.failcnt + 1).toNat = s.failcnt.toNat + 1 := failcnt_succ_toNat (hc ▸ hle)
    exact ⟨fs, hnone, hle, hsucc.trans (by rw [hc]), f, hf, by simp [hh]⟩
  | rxIrrelevant f rest hp _ _ hf =>
    intro hread
    rw [ReadGrammar, hp] at hg
    obtain ⟨fs, hnone, hle, hh, hc⟩ := hg hread
    have hcount : corruptCount (fs ++ [f]) = corruptCount fs := by simp [corruptCount_concat, hf]
    exact ⟨fs ++ [f], hnone.concat (.inr hf), hcount ▸ hle,
      by simp [hh, cyclesEvents_concat, cycleEvents_of_irrelevant hf], hcount ▸ hc⟩
  | rxRelevant f rest p hp _ _ hf =>
    intro hread
    rw [ReadGrammar, hp] at hg
    obtain ⟨fs, hnone, hle, hh, -⟩ := hg hread
    exact ⟨fs, hnone, hle, rfl, f, hf, by simp [hh]⟩
  | drainLimit gone rest hp _ hlimit =>
    intro hread
    rw [ReadGrammar, hp] at hg
    obtain ⟨fs, hnone, hle, hc, f, hf, hh⟩ := hg hread
    exact ⟨fs, hnone, hle, by bv_omega, by omega, f, hf, by simp [hh]⟩
  | drainOn gone rest hp _ hlimit =>
    intro hread
    rw [ReadGrammar, hp] at hg
    obtain ⟨fs, hnone, hle, hc, f, hf, hh⟩ := hg hread
    have hcount : corruptCount (fs ++ [f]) = corruptCount fs + 1 := by simp [corruptCount_concat, hf]
    exact ⟨fs ++ [f], hnone.concat (.inl hf), by omega,
      by simp [hh, cyclesEvents_concat, cycleEvents_of_corrupt hf], hc.trans hcount.symm⟩
  | backoff hp =>
    rw [ReadGrammar, hp] at hg
    exact hg

/-- Settles O45: each row of the block's move keeps the grammar, and no other turn leaves a READ with another history. -/
theorem everyStepKeepsTheReadGrammar : Obligations.EveryStepKeepsTheReadGrammar := by
  intro s t hs hg h
  obtain ⟨a, -, hm⟩ | ⟨n, -, rfl⟩ | ho := step_by_kind h
  · have hsame : SameRegisters s (beginStep a (nextTurn s).2) := .beginStep_nextTurn a s
    exact hm.keeps_readGrammar (hs.of_sameRegisters hsame) (hg.of_sameRegisters hsame (by simp))
  · exact .of_not_read nofun
  · exact hg.of_sameRegisters ho.registers ho.history

/-! ## The numbers of calls of an ended READ -/

theorem counts_append (h₁ h₂ : List ChEvent) :
    writeCount (h₁ ++ h₂) = writeCount h₁ + writeCount h₂ ∧ drainCount (h₁ ++ h₂) = drainCount h₁ + drainCount h₂ ∧
    sleepCount (h₁ ++ h₂) = sleepCount h₁ + sleepCount h₂ ∧
    ∀ p, readCount p (h₁ ++ h₂) = readCount p h₁ + readCount p h₂ :=
  ⟨List.countP_append, List.countP_append, List.countP_append, fun _ => List.countP_append⟩

/-- A cycle has one read, whatever follows it. -/
theorem readCount_of_one_read (p : Frame → Bool) (f : Frame) {rest : List ChEvent} (h : readCount p rest = 0) :
    readCount p (wroteRead :: waited :: .read f :: rest) = if p f then 1 else 0 := by
  unfold readCount at h ⊢
  simp [wroteRead, waited, List.countP_cons, h]

theorem counts_cycleEvents (f : Frame) :
    writeCount (cycleEvents f) = 1 ∧ drainCount (cycleEvents f) = (if classify f = .corrupt then 1 else 0) ∧
    sleepCount (cycleEvents f) = 2 ∧ ∀ p, readCount p (cycleEvents f) = if p f then 1 else 0 := by
  unfold cycleEvents
  split
  · exact ⟨rfl, rfl, rfl, fun p => readCount_of_one_read p f rfl⟩
  · exact ⟨rfl, rfl, rfl, fun p => readCount_of_one_read p f rfl⟩

theorem cyclesEvents_cons (f : Frame) (fs : List Frame) : cyclesEvents (f :: fs) = cycleEvents f ++ cyclesEvents fs :=
  rfl

theorem corruptCount_cons (f : Frame) (fs : List Frame) :
    corruptCount (f :: fs) = corruptCount fs + if classify f = .corrupt then 1 else 0 := by
  simp [corruptCount, List.countP_cons]

/-- The cycles that go on have one write, one read and two waits each, and a drain for each corrupt frame. -/
theorem counts_cyclesEvents (fs : List Frame) :
    writeCount (cyclesEvents fs) = fs.length ∧ drainCount (cyclesEvents fs) = corruptCount fs ∧
    sleepCount (cyclesEvents fs) = 2 * fs.length ∧ ∀ p, readCount p (cyclesEvents fs) = fs.countP p := by
  induction fs with
  | nil => exact ⟨rfl, rfl, rfl, fun _ => rfl⟩
  | cons f fs ih =>
    simp only [cyclesEvents_cons, counts_append, counts_cycleEvents, ih, List.length_cons, corruptCount_cons,
      List.countP_cons]
    exact ⟨by omega, by omega, by omega, fun _ => by omega⟩

/-- Of frames that end no READ, what is not corrupt is irrelevant. -/
theorem NoneRelevant.length_eq {fs : List Frame} (h : NoneRelevant fs) :
    fs.length = corruptCount fs + fs.countP fun f => classify f = .irrelevant := by
  rw [corruptCount, List.length_eq_countP_add_countP fun f => decide (classify f = .corrupt)]
  congr 1
  refine List.countP_congr fun f hf => ?_
  obtain hc | hc := h f hf <;> simp [hc]

/-- The last cycle of a READ, cut after its read. -/
theorem counts_lastRead (f : Frame) :
    writeCount [wroteRead, waited, .read f] = 1 ∧ drainCount [wroteRead, waited, .read f] = 0 ∧
    sleepCount [wroteRead, waited, .read f] = 1 ∧
    ∀ p, readCount p [wroteRead, waited, .read f] = if p f then 1 else 0 :=
  ⟨rfl, rfl, rfl, fun p => readCount_of_one_read p f rfl⟩

/-- The last cycle of a READ, cut after its drain. -/
theorem counts_lastDrain (f : Frame) :
    writeCount [wroteRead, waited, .read f, .drain] = 1 ∧ drainCount [wroteRead, waited, .read f, .drain] = 1 ∧
    sleepCount [wroteRead, waited, .read f, .drain] = 1 ∧
    ∀ p, readCount p [wroteRead, waited, .read f, .drain] = if p f then 1 else 0 :=
  ⟨rfl, rfl, rfl, fun p => readCount_of_one_read p f rfl⟩

/-- Settles O46: the numbers of calls of the cycles that went on, and those of the last cycle. -/
theorem endedReadsHaveTheTablesCounts : Obligations.EndedReadsHaveTheTablesCounts := by
  intro s hg hread hp
  rw [ReadGrammar, hp] at hg
  obtain ⟨fs, hnone, hle, hend⟩ := hg hread
  have hlen := hnone.length_eq
  have hk : (fs.countP fun f => classify f = .corrupt) = corruptCount fs := rfl
  refine ⟨_, _, rfl, rfl, fun hst => ?_, fun hst => ?_⟩
  · rw [hst] at hend
    obtain ⟨-, f, hf, hh⟩ := hend
    simp only [hh, counts_append, counts_cyclesEvents, counts_lastRead, hk, hf, List.countP_true, reduceCtorEq,
      decide_false, Bool.false_eq_true, if_false, if_true, true_and]
    omega
  · rw [hst] at hend
    obtain ⟨-, hc, f, hf, hh⟩ := hend
    simp only [hh, counts_append, counts_cyclesEvents, counts_lastDrain, hk, hf, List.countP_true, reduceCtorEq,
      decide_false, decide_true, Bool.false_eq_true, if_false, if_true]
    omega

end Sys2Proof.Machine
end

section
/-! The statements of 43_read.md on one step: what READ does in each phase, then what every step leaves of `PHASE` and
`PPM`. -/

namespace Sys2Proof.Machine

/-! ## The phases of READ -/

/-! The steps of SETTLE, DRAIN and BACKOFF are READ's. -/

theorem exec_read_of_settle {s : State} (hp : s.phase = .settle) : exec .read s = .next (settleStep s) := by
  simp only [exec, execRead, hp]

theorem exec_read_of_drain {s : State} (hp : s.phase = .drain) : exec .read s = .next (drainStep s) := by
  simp only [exec, execRead, hp]

theorem exec_read_of_backoff {s : State} (hp : s.phase = .backoff) : exec .read s = .next (backoffStep s) := by
  simp only [exec, execRead, hp]

/-- Settles O28: either wait is one step. -/
theorem waitsChangeOnlyThePhase : Obligations.WaitsChangeOnlyThePhase :=
  fun _ => ⟨exec_read_of_settle, exec_read_of_backoff⟩

/-- Settles O26: what the latch holds is the command, whose frame is the table's; of the commands READ alone goes on. -/
theorem txWritesTheCommandsFrame : Obligations.TxWritesTheCommandsFrame := by
  intro i f s hf hp hfields
  rw [wireFields_eq_commandFields] at hfields
  have hl : latched s = some i := (latched_eq_some_iff s i).2 hfields
  have hread := cmdOp_eq_opRead_iff hl
  rw [exec_command_tx hl hp]
  obtain ⟨hnone, -⟩ | ⟨g, hg, hcases⟩ := txStep_cases s
  · rw [commandFrame_of_commandFields hfields, hf] at hnone
    cases hnone
  · rw [commandFrame_of_commandFields hfields, hf] at hg
    obtain rfl := Option.some.inj hg
    obtain ⟨hw, ho, h⟩ | ⟨hw, ho, h⟩ | ⟨n, hw, h⟩ := hcases
    · have hi := hread.1 ho
      exact ⟨fun _ => by simp [h, hi], by simp [hw]⟩
    · have hi := mt hread.2 ho
      exact ⟨fun _ => by simp [h, hi], by simp [hw]⟩
    · refine ⟨by simp [hw], fun m hm => ?_⟩
      obtain rfl := Option.some.inj (hw.symm.trans hm)
      exact h

theorem chRead_of_readErr {s : State} {n : Nat} (hr : s.chan.readErr = some n) :
    chRead s = .ioErr { s with rxStream := s.rxStream.drop (min n 8), history := s.history ++ [.readErr] } := by
  simp only [chRead, hr, Config.frameLen]

/-- Settles O29: `ChRead` fails, and the error end writes `STATUS` and `PHASE` only. -/
theorem readFailureEndsTheRead : Obligations.ReadFailureEndsTheRead := by
  intro s n hp hr
  rw [exec_read_of_rx hp, rxStep, chRead_of_readErr hr]
  rfl

theorem rxStep_of_frame {s : State} {f : Frame} {rest : List Byte} (he : s.chan.readErr = none)
    (hs : s.rxStream = frameBytes f ++ rest) :
    rxStep s = receiveFrame f { s with rxStream := rest, history := s.history ++ [.read f] } := by
  have hrest : s.rxStream.drop Config.frameLen = rest := by rw [hs]; rfl
  simp only [rxStep, chRead_of_frame he hs, consumeFrame, hrest]

theorem receiveFrame_of_corrupt {f : Frame} (s : State) (h : classify f = .corrupt) :
    receiveFrame f s = { s with rxbuf := f, failcnt := s.failcnt + 1, phase := .drain } := by
  simp only [receiveFrame, h]

theorem receiveFrame_of_irrelevant {f : Frame} (s : State) (h : classify f = .irrelevant) :
    receiveFrame f s = { s with rxbuf := f, phase := .backoff } := by
  simp only [receiveFrame, h]

theorem receiveFrame_of_relevant {f : Frame} {p : U16} (s : State) (h : classify f = .relevant p) :
    receiveFrame f s = { s with rxbuf := f, failcnt := 0, ppm := p, status := .ok, phase := .idle } := by
  simp only [receiveFrame, h, endOk]

/-- Settles O30: the frame at the front of the stream is the one validated. -/
theorem readTakesOneOfThreeBranches : Obligations.ReadTakesOneOfThreeBranches := by
  intro s f rest hp he hs
  rw [exec_read_of_rx hp, rxStep_of_frame he hs]
  exact ⟨fun hf => congrArg _ (receiveFrame_of_corrupt _ hf), fun hf => congrArg _ (receiveFrame_of_irrelevant _ hf),
    fun p hf => congrArg _ (receiveFrame_of_relevant _ hf)⟩

theorem exec_readReply_of_rx (ppm : U16) (d4 d5 d6 d7 cs : Byte) {s : State} (hp : s.phase = .rx) :
    exec (.readReply ppm d4 d5 d6 d7 cs) s =
      .next (receiveFrame (replyFrame ppm d4 d5 d6 d7 cs) (consumeFrame (replyFrame ppm d4 d5 d6 d7 cs) s)) := by
  simp only [exec, execReadReply, hp, if_true]

theorem exec_readReply_of_not_rx (ppm : U16) (d4 d5 d6 d7 cs : Byte) {s : State} (hp : s.phase ≠ .rx) :
    exec (.readReply ppm d4 d5 d6 d7 cs) s = .next s := by
  simp only [exec, execReadReply, hp, if_false]

/-- A well-formed READ_REPLY is relevant, with its own value. -/
theorem classify_replyFrame_of_wellFormed {ppm : U16} {d4 d5 d6 d7 cs : Byte}
    (h : (Instr.readReply ppm d4 d5 d6 d7 cs).wellFormed = true) :
    classify (replyFrame ppm d4 d5 d6 d7 cs) = .relevant ppm :=
  (classify_eq_relevant_iff _ _).2 ⟨h, rfl, (joinBytes_hiByte_loByte ppm).symm⟩

/-- Settles O32, by the class of the reply's frame. -/
theorem readReplyEndsTheRead : Obligations.ReadReplyEndsTheRead := by
  intro ppm d4 d5 d6 d7 cs s
  refine ⟨fun hp hw => ?_, fun hp hw => ?_, exec_readReply_of_not_rx ppm d4 d5 d6 d7 cs⟩
  · rw [exec_readReply_of_rx _ _ _ _ _ _ hp, receiveFrame_of_relevant _ (classify_replyFrame_of_wellFormed hw)]
    rfl
  · rw [exec_readReply_of_rx _ _ _ _ _ _ hp, receiveFrame_of_corrupt _ ((classify_eq_corrupt_iff _).2 hw)]
    rfl

/-- Settles O33, by the limit test on the count, which the drain leaves. -/
theorem drainComesBeforeTheLimit : Obligations.DrainComesBeforeTheLimit := by
  intro s rest hp hcut
  rw [exec_read_of_drain hp]
  obtain ⟨rest', gone, -, hrest, hlimit⟩ := drainStep_cases s
  obtain rfl : rest' = rest := by
    obtain ⟨hc, rfl⟩ | ⟨n, hc, rfl⟩ := hcut <;> rw [hrest, hc]
  obtain ⟨hc, h⟩ | ⟨hc, h⟩ := hlimit
  · exact ⟨fun _ => congrArg _ h, fun hle => by omega⟩
  · exact ⟨fun hgt => by omega, fun _ => congrArg _ h⟩

/-! ## Every step -/

theorem fetch_of_latched {s : State} {i : Instr} (hp : s.phase = .tx) (hl : latched s = some i) : fetch s = .run i := by
  simp only [fetch, hp, hl]

theorem transceiver_of_no_request {s : State} (hp : s.phase = .idle) (hr : s.req = none) : transceiver s = .next s := by
  simp only [transceiver, fetch, hp, hr]

/-- Settles O15, by the fetch of each phase; in RX READ and the reply at the front of the stream take one step. -/
theorem stepRunsTheFetchedInstruction : Obligations.StepRunsTheFetchedInstruction := by
  intro s a ts hturn
  rw [step_of_transceiver_turn hturn]
  refine ⟨fun hp hr => transceiver_of_no_request hp hr, fun w i hp hr hd => ?_, fun i hp hd => ?_,
    fun f rest i hp he hs hd => ?_, fun hi ht => transceiver_read hi ht⟩
  · exact transceiver_of_fetch_run (fetch_of_request hp hr hd)
  · exact transceiver_of_fetch_run
      (fetch_of_latched hp (latched_of_fields ((decodeCommand_eq_ok_iff _ _ i).1 hd) rfl rfl))
  · exact ⟨transceiver_of_fetch_run (fetch_of_reply hp he ((takeFrame_eq_some_iff _ _ _).1 hs) hd),
      transceiver_read (by simp [hp]) (by simp [hp])⟩

/-- The rows of the block's move that change `PHASE` are rows of the table. -/
theorem BlockMove.phase_row {s t : State} (h : BlockMove s t) : t.phase = s.phase ∨ (s.phase, t.phase) ∈ tableRows := by
  cases h with
  | waiting | refused | openOk | openFail | closed | rxBlocked => exact .inl rfl
  | accepted _ _ _ _ hp | txRead _ _ hp | txDone _ _ hp | txFail _ _ _ hp | settle hp | rxFail _ hp | rxCorrupt _ _ hp
  | rxIrrelevant _ _ hp | rxRelevant _ _ _ hp | drainLimit _ _ hp | drainOn _ _ hp | backoff hp =>
    exact .inr (by simp [hp, tableRows])

/-- SETTLE is entered by READ's row of TX only. -/
theorem BlockMove.enters_settle {s t : State} (h : BlockMove s t) (ht : t.phase = .settle) (hs : s.phase ≠ .settle) :
    s.phase = .tx ∧ s.cmdOp = 0x86 := by
  cases h with
  | txRead _ _ hp _ _ _ ho => exact ⟨hp, ho⟩
  | waiting | refused | openOk | openFail | closed | rxBlocked => exact absurd ht hs
  | _ => cases ht

/-- Settles O34, by the rows of the block's move; a reset goes to IDLE, the other turns leave the phase. -/
theorem phasesFollowTheTable : Obligations.PhasesFollowTheTable := by
  intro s t h
  obtain ⟨a, -, hm⟩ | ⟨n, hn, rfl⟩ | ho := step_by_kind h
  · have hrow := hm.phase_row
    have hsettle := hm.enters_settle
    simp only [beginStep_fields, nextTurn_fields] at hrow hsettle
    exact ⟨hrow.imp_right .inl, hsettle⟩
  · exact ⟨.inr (.inr ⟨⟨n, hn⟩, rfl⟩), nofun⟩
  · have hp := ho.registers.phase
    exact ⟨.inl hp, fun ht hs => absurd (hp.symm.trans ht) hs⟩

/-- Of the block's moves only the receipt of a relevant frame changes `PPM`. -/
theorem BlockMove.ppm_changes {s t : State} (h : BlockMove s t) (hne : t.ppm ≠ s.ppm) :
    s.phase = .rx ∧ t.status = .ok ∧ classify t.rxbuf = .relevant t.ppm ∧
      ∃ rest, s.rxStream = frameBytes t.rxbuf ++ rest := by
  cases h with
  | rxRelevant f rest p hp _ hs hf => exact ⟨hp, rfl, hf, rest, hs⟩
  | _ => exact absurd rfl hne

/-- Settles O37, by the block's rows; the turns outside the block leave `PPM`. -/
theorem ppmIsWrittenByAReadingOnly : Obligations.PpmIsWrittenByAReadingOnly := by
  intro s t h hne
  obtain ⟨a, -, hm⟩ | ⟨n, hn, -⟩ | ho := step_by_kind h
  · exact .inr (by simpa using hm.ppm_changes (by simpa using hne))
  · exact .inl ⟨n, hn⟩
  · exact absurd ho.registers.ppm hne

end Sys2Proof.Machine
end

section
/-! The statements of 43_read.md on whole READs. `ReadAt` says where a READ stands; each step of the block or of the device is
a lemma from one `ReadAt` to the next, and the steps are joined by `Reaches`. -/

namespace Sys2Proof.Machine

/-! ## Runs -/

theorem run_succ_eq_next_iff (M : Host.Core) (n : Nat) (s t : M.State) :
    M.run (n + 1) s = .next t ↔ ∃ u, M.step s = .next u ∧ M.run n u = .next t := by
  rw [Host.Core.run]
  cases M.step s <;> simp

/-- `n` steps of the machine lead from `s` to `t`. -/
def Reaches (n : Nat) (s t : State) : Prop := Host.Core.run core n s = .next t

theorem reaches_zero_iff (s t : State) : Reaches 0 s t ↔ s = t :=
  ⟨fun h => by cases h; rfl, fun h => by subst h; rfl⟩

theorem reaches_succ_iff (n : Nat) (s t : State) : Reaches (n + 1) s t ↔ ∃ u, step s = .next u ∧ Reaches n u t :=
  run_succ_eq_next_iff core n s t

theorem Reaches.refl (s : State) : Reaches 0 s s := rfl

theorem Reaches.cons {n : Nat} {s u t : State} (hs : step s = .next u) (hr : Reaches n u t) : Reaches (n + 1) s t :=
  (reaches_succ_iff n s t).2 ⟨u, hs, hr⟩

theorem Reaches.single {s t : State} (hs : step s = .next t) : Reaches 1 s t := .cons hs (.refl t)

theorem Reaches.trans {m n : Nat} {s u t : State} (hm : Reaches m s u) (hn : Reaches n u t) : Reaches (m + n) s t := by
  induction m generalizing s with
  | zero =>
    obtain rfl := (reaches_zero_iff s u).1 hm
    rwa [zero_add]
  | succ m ih =>
    obtain ⟨v, hv, hm⟩ := (reaches_succ_iff m s u).1 hm
    rw [Nat.add_right_comm]
    exact .cons hv (ih hm)

/-! ## The steps of a READ on a channel that does not fail -/

/-- A READ of the block `b`, in phase `ph`: `rx` waits in the RX stream, the turns `ts` are to come, `c` corrupt frames
are counted, the history is `h`; the handle, `STATUS`, `PPM`, the last operation and the schedule that repeats are those
of `b`. -/
structure ReadAt (b : State) (ph : Phase) (rx : List Byte) (ts : List Turn) (c : Nat) (h : List ChEvent) (s : State) :
    Prop where
  phase : s.phase = ph
  rxStream : s.rxStream = rx
  turns : s.turns = ts
  failcnt : s.failcnt.toNat = c
  history : s.history = h
  latch : latched s = some .read
  opened : s.opened = b.opened
  status : s.status = b.status
  ppm : s.ppm = b.ppm
  lastOp : s.lastOp = b.lastOp
  again : s.again = b.again

section
variable {b s : State} {rx : List Byte} {ts : List Turn} {c : Nat} {h : List ChEvent}

/-- The device's turn, from either list of the schedule. -/
theorem ReadAt.of_deviceSends {ph : Phase} {bs : List Byte} {ts' : List Turn}
    (hnext : nextTurn s = (.deviceSends bs, { s with turns := ts' })) (hs : ReadAt b ph rx ts c h s) :
    ∃ t, step s = .next t ∧ ReadAt b ph (rx ++ bs) ts' c h t := by
  have hstep : step s = .next (deviceSends bs { s with turns := ts' }) := by simp only [step, hnext]
  exact ⟨_, hstep, { hs with rxStream := congrArg (· ++ bs) hs.rxStream, turns := rfl }⟩

/-- In the phases after TX the block's step on a channel that does not fail is READ's. -/
theorem ReadAt.step_eq_exec {ph : Phase} (hs : ReadAt b ph rx (okTurn :: ts) c h s) (hi : ph ≠ .idle)
    (hx : ph ≠ .tx) :
    step s = exec .read (s.started .allOk ts) :=
  (step_of_transceiver_turn hs.turns).trans (transceiver_read (hs.phase ▸ hi) (hs.phase ▸ hx))

theorem ReadAt.writes (hs : ReadAt b .tx rx (okTurn :: ts) c h s) :
    ∃ t, step s = .next t ∧ ReadAt b .settle rx ts c (h ++ [wroteRead]) t := by
  have hfields : commandFields .read = some (s.cmdOp, s.cmdArg) := (latched_eq_some_iff s .read).1 hs.latch
  obtain ⟨-, -, htx, -⟩ := stepRunsTheFetchedInstruction s .allOk ts hs.turns
  obtain ⟨hok, -⟩ := txWritesTheCommandsFrame .read readFrame (s.started .allOk ts) rfl hs.phase hfields
  exact ⟨_, (htx .read hs.phase ((decodeCommand_eq_ok_iff _ _ _).2 hfields)).trans (hok rfl),
    { hs with phase := rfl, turns := rfl, history := congrArg (· ++ [wroteRead]) hs.history }⟩

theorem ReadAt.settles (hs : ReadAt b .settle rx (okTurn :: ts) c h s) :
    ∃ t, step s = .next t ∧ ReadAt b .rx rx ts c (h ++ [waited]) t :=
  ⟨_, (hs.step_eq_exec nofun nofun).trans (exec_read_of_settle hs.phase),
    { hs with phase := rfl, turns := rfl, history := congrArg (· ++ [waited]) hs.history }⟩

theorem ReadAt.receives_corrupt {f : Frame} (hf : classify f = .corrupt) (hc : c ≤ 8)
    (hs : ReadAt b .rx (frameBytes f) (okTurn :: ts) c h s) :
    ∃ t, step s = .next t ∧ ReadAt b .drain [] ts (c + 1) (h ++ [.read f]) t := by
  have hcount : (s.failcnt + 1).toNat = c + 1 := by rw [failcnt_succ_toNat (hs.failcnt ▸ hc), hs.failcnt]
  obtain ⟨hcorrupt, -, -⟩ := readTakesOneOfThreeBranches (s.started .allOk ts) f [] hs.phase rfl hs.rxStream
  exact ⟨_, (hs.step_eq_exec nofun nofun).trans (hcorrupt hf),
    { hs with
      phase := rfl, rxStream := rfl, turns := rfl, failcnt := hcount,
      history := congrArg (· ++ [ChEvent.read f]) hs.history }⟩

theorem ReadAt.receives_irrelevant {f : Frame} (hf : classify f = .irrelevant)
    (hs : ReadAt b .rx (frameBytes f) (okTurn :: ts) c h s) :
    ∃ t, step s = .next t ∧ ReadAt b .backoff [] ts c (h ++ [.read f]) t := by
  obtain ⟨-, hirrelevant, -⟩ := readTakesOneOfThreeBranches (s.started .allOk ts) f [] hs.phase rfl hs.rxStream
  exact ⟨_, (hs.step_eq_exec nofun nofun).trans (hirrelevant hf),
    { hs with
      phase := rfl, rxStream := rfl, turns := rfl, history := congrArg (· ++ [ChEvent.read f]) hs.history }⟩

theorem ReadAt.receives_relevant {f : Frame} {p : U16} (hf : classify f = .relevant p)
    (hs : ReadAt b .rx (frameBytes f) (okTurn :: ts) c h s) :
    ∃ t, step s = .next t ∧ ReadAt { b with status := .ok, ppm := p } .idle [] ts 0 (h ++ [.read f]) t := by
  obtain ⟨-, -, hrelevant⟩ := readTakesOneOfThreeBranches (s.started .allOk ts) f [] hs.phase rfl hs.rxStream
  exact ⟨_, (hs.step_eq_exec nofun nofun).trans (hrelevant p hf),
    { hs with
      phase := rfl, rxStream := rfl, turns := rfl, failcnt := rfl, status := rfl, ppm := rfl,
      history := congrArg (· ++ [ChEvent.read f]) hs.history }⟩

theorem ReadAt.drains_on (hc : c ≤ 8) (hs : ReadAt b .drain rx (okTurn :: ts) c h s) :
    ∃ t, step s = .next t ∧ ReadAt b .backoff [] ts c (h ++ [.drain]) t := by
  obtain ⟨-, hon⟩ := drainComesBeforeTheLimit (s.started .allOk ts) [] hs.phase (.inl ⟨rfl, rfl⟩)
  exact ⟨_, (hs.step_eq_exec nofun nofun).trans (hon (hs.failcnt.trans_le hc)),
    { hs with
      phase := rfl, rxStream := rfl, turns := rfl, history := congrArg (· ++ [ChEvent.drain]) hs.history }⟩

theorem ReadAt.drains_at_limit (hc : c > 8) (hs : ReadAt b .drain rx (okTurn :: ts) c h s) :
    ∃ t, step s = .next t ∧ ReadAt { b with status := .errCsum } .idle [] ts c (h ++ [.drain]) t := by
  obtain ⟨hlimit, -⟩ := drainComesBeforeTheLimit (s.started .allOk ts) [] hs.phase (.inl ⟨rfl, rfl⟩)
  exact ⟨_, (hs.step_eq_exec nofun nofun).trans (hlimit (hs.failcnt.symm ▸ hc)),
    { hs with
      phase := rfl, rxStream := rfl, turns := rfl, status := rfl,
      history := congrArg (· ++ [ChEvent.drain]) hs.history }⟩

theorem ReadAt.backs_off (hs : ReadAt b .backoff rx (okTurn :: ts) c h s) :
    ∃ t, step s = .next t ∧ ReadAt b .tx rx ts c (h ++ [waited]) t :=
  ⟨_, (hs.step_eq_exec nofun nofun).trans (exec_read_of_backoff hs.phase),
    { hs with phase := rfl, turns := rfl, history := congrArg (· ++ [waited]) hs.history }⟩

/-! ## The cycles of a READ -/

/-- The device sends `f`, and the block writes and waits for it. -/
theorem ReadAt.reaches_rx {f : Frame}
    (hs : ReadAt b .tx [] (.deviceSends (frameBytes f) :: okTurn :: okTurn :: ts) c h s) :
    ∃ t, Reaches 3 s t ∧ ReadAt b .rx (frameBytes f) ts c (h ++ [wroteRead, waited]) t := by
  obtain ⟨u, hu, hs⟩ := hs.of_deviceSends (nextTurn_of_turns_cons hs.turns)
  obtain ⟨v, hv, hs⟩ := hs.writes
  obtain ⟨t, ht, hs⟩ := hs.settles
  exact ⟨t, .cons hu (.cons hv (.single ht)), by simpa using hs⟩

theorem ReadAt.reaches_drain {f : Frame} (hf : classify f = .corrupt) (hc : c ≤ 8)
    (hs : ReadAt b .tx [] (.deviceSends (frameBytes f) :: okTurn :: okTurn :: okTurn :: ts) c h s) :
    ∃ t, Reaches 4 s t ∧ ReadAt b .drain [] ts (c + 1) (h ++ [wroteRead, waited, .read f]) t := by
  obtain ⟨u, hu, hs⟩ := hs.reaches_rx
  obtain ⟨t, ht, hs⟩ := hs.receives_corrupt hf hc
  exact ⟨t, hu.trans (.single ht), by simpa using hs⟩

theorem ReadAt.corrupt_cycle {f : Frame} (hf : classify f = .corrupt) (hc : c < 8)
    (hs : ReadAt b .tx [] (cycleTurns f ++ ts) c h s) :
    ∃ t, Reaches (cycleTurns f).length s t ∧ ReadAt b .tx [] ts (c + 1) (h ++ cycleEvents f) t := by
  rw [cycleTurns, if_pos hf] at hs ⊢
  obtain ⟨u, hu, hs⟩ := ReadAt.reaches_drain hf hc.le hs
  obtain ⟨v, hv, hs⟩ := hs.drains_on hc
  obtain ⟨t, ht, hs⟩ := hs.backs_off
  exact ⟨t, hu.trans (.cons hv (.single ht)), by simpa [cycleEvents_of_corrupt hf] using hs⟩

theorem ReadAt.irrelevant_cycle {f : Frame} (hf : classify f = .irrelevant)
    (hs : ReadAt b .tx [] (cycleTurns f ++ ts) c h s) :
    ∃ t, Reaches (cycleTurns f).length s t ∧ ReadAt b .tx [] ts c (h ++ cycleEvents f) t := by
  rw [cycleTurns, if_neg (by simp [hf])] at hs ⊢
  obtain ⟨u, hu, hs⟩ := ReadAt.reaches_rx hs
  obtain ⟨v, hv, hs⟩ := hs.receives_irrelevant hf
  obtain ⟨t, ht, hs⟩ := hs.backs_off
  exact ⟨t, hu.trans (.cons hv (.single ht)), by simpa [cycleEvents_of_irrelevant hf] using hs⟩

end

/-- Frames that end no READ, at most eight corrupt with those counted before, are so many cycles. -/
theorem ReadAt.cycles {b : State} {ts : List Turn} {fs : List Frame} (hnone : NoneRelevant fs) {s : State} {c : Nat}
    {h : List ChEvent} (hc : c + corruptCount fs ≤ 8) (hs : ReadAt b .tx [] (fs.flatMap cycleTurns ++ ts) c h s) :
    ∃ t, Reaches (fs.flatMap cycleTurns).length s t ∧
      ReadAt b .tx [] ts (c + corruptCount fs) (h ++ cyclesEvents fs) t := by
  induction fs generalizing s c h with
  | nil => exact ⟨s, .refl s, by simpa [cyclesEvents, corruptCount] using hs⟩
  | cons f fs ih =>
    have hcount := corruptCount_cons f fs
    have hrest : NoneRelevant fs := fun g hg => hnone g (List.mem_cons_of_mem f hg)
    rw [List.flatMap_cons, List.append_assoc] at hs
    rw [List.flatMap_cons, List.length_append, cyclesEvents_cons, ← List.append_assoc]
    obtain hf | hf := hnone f List.mem_cons_self
    · rw [if_pos hf] at hcount
      obtain ⟨u, hu, hs⟩ := hs.corrupt_cycle hf (by omega)
      obtain ⟨t, ht, hs⟩ := ih hrest (by omega) hs
      exact ⟨t, hu.trans ht, by rwa [hcount, add_comm (corruptCount fs), ← add_assoc]⟩
    · rw [if_neg (by simp [hf]), add_zero] at hcount
      obtain ⟨u, hu, hs⟩ := hs.irrelevant_cycle hf
      obtain ⟨t, ht, hs⟩ := ih hrest (by omega) hs
      exact ⟨t, hu.trans ht, by rwa [hcount]⟩

/-! ## Whole READs -/

theorem exec_command_accepted {s : State} {i : Instr} {op : Byte} {arg : U16} (hf : commandFields i = some (op, arg))
    (hp : s.phase = .idle) (ho : s.opened = true) :
    exec i s = .next { acceptCommand i op arg s with failcnt := if i = .read then 0 else s.failcnt } := by
  rw [exec_command_idle hf s hp, if_pos ho]

theorem step_accepts_command {s : State} {ts : List Turn} {w : HReq} {i : Instr} {op : Byte} {arg : U16}
    (ht : s.turns = okTurn :: ts) (hp : s.phase = .idle) (ho : s.opened = true) (hr : s.req = some w)
    (hd : decodeRequest w = .ok i) (hf : commandFields i = some (op, arg)) :
    step s = .next { acceptCommand i op arg (s.started .allOk ts) with
      failcnt := if i = .read then 0 else s.failcnt } := by
  obtain ⟨-, hrequest, -⟩ := stepRunsTheFetchedInstruction s .allOk ts ht
  exact (hrequest w i hp hr hd).trans (exec_command_accepted hf hp ho)

/-- The idle block that holds the handle accepts the READ presented: whatever `FAILCNT` held, the count starts at zero. -/
theorem reaches_accepted_read {s : State} {ts : List Turn} (hp : s.phase = .idle) (ho : s.opened = true)
    (hrx : s.rxStream = []) (ht : s.turns = .hostPresents 0x0860000 :: okTurn :: ts) :
    ∃ t, Reaches 2 s t ∧ ReadAt { s with status := .none, lastOp := some .read } .tx [] ts 0 [] t := by
  have hpresent : step s = .next (hostPresents 0x0860000 { s with turns := okTurn :: ts }) := by
    simp only [step, nextTurn_of_turns_cons ht]
  have hdecode : decodeRequest 0x0860000 = .ok .read := by decide
  have haccept := step_accepts_command (s := hostPresents 0x0860000 { s with turns := okTurn :: ts }) rfl hp ho rfl
    hdecode rfl
  exact ⟨_, .cons hpresent (.single haccept),
    { phase := rfl, rxStream := hrx, turns := rfl, failcnt := rfl, history := rfl, latch := rfl, opened := rfl,
      status := rfl, ppm := rfl, lastOp := rfl, again := rfl }⟩

theorem readTurns_length (fs : List Frame) (g : Frame) (n : Nat) :
    (readTurns fs g n).length = 2 + (fs.flatMap cycleTurns).length + (n + 1) := by
  simp only [readTurns, List.length_append, List.length_cons, List.length_nil, List.length_replicate]

/-- A READ of the environment of `readTurns` comes to the cycle of its last frame `g`. -/
theorem reaches_last_cycle {s : State} {fs : List Frame} {g : Frame} {n : Nat} {ts : List Turn} (hp : s.phase = .idle)
    (ho : s.opened = true) (hrx : s.rxStream = []) (hnone : NoneRelevant fs) (hc : corruptCount fs ≤ 8)
    (ht : s.turns = readTurns fs g n ++ ts) :
    ∃ t, Reaches (2 + (fs.flatMap cycleTurns).length) s t ∧
      ReadAt { s with status := .none, lastOp := some .read } .tx []
        (.deviceSends (frameBytes g) :: (List.replicate n okTurn ++ ts)) (corruptCount fs) (cyclesEvents fs) t := by
  rw [readTurns, List.append_assoc, List.append_assoc] at ht
  obtain ⟨u, hu, hs⟩ := reaches_accepted_read hp ho hrx ht
  obtain ⟨t, ht, hs⟩ := hs.cycles hnone (by omega)
  exact ⟨t, hu.trans ht, by simpa using hs⟩

/-- Settles O47: the cycles of `fs`, and then `g` is received. -/
theorem readSucceedsWithinEightCorruptFrames : Obligations.ReadSucceedsWithinEightCorruptFrames := by
  intro s fs g p ts hp ho hrx hnone hc hg ht
  obtain ⟨u, hu, hs⟩ := reaches_last_cycle hp ho hrx hnone hc ht
  obtain ⟨v, hv, hs⟩ := ReadAt.reaches_rx hs
  obtain ⟨t, ht, hs⟩ := hs.receives_relevant hg
  have hrun : Reaches (readTurns fs g 3).length s t := by
    rw [readTurns_length]
    exact hu.trans (hv.trans (.single ht))
  exact ⟨t, hrun, hs.phase, hs.status, hs.ppm, BitVec.eq_of_toNat_eq hs.failcnt, hs.rxStream, hs.turns, hs.lastOp,
    by simp [hs.history]⟩

/-- Settles O48: the cycles of `fs`, and then `g` is received, counted, and drained at the limit. -/
theorem ninthCorruptFrameExhaustsTheRead : Obligations.NinthCorruptFrameExhaustsTheRead := by
  intro s fs g ts hp ho hrx hnone hc hg ht
  obtain ⟨u, hu, hs⟩ := reaches_last_cycle hp ho hrx hnone hc.le ht
  obtain ⟨v, hv, hs⟩ := ReadAt.reaches_drain hg hc.le hs
  obtain ⟨t, ht, hs⟩ := hs.drains_at_limit (by omega)
  have hrun : Reaches (readTurns fs g 4).length s t := by
    rw [readTurns_length]
    exact hu.trans (hv.trans (.single ht))
  have hnine : t.failcnt = 9 := BitVec.eq_of_toNat_eq (hs.failcnt.trans (congrArg (· + 1) hc))
  exact ⟨t, hrun, hs.phase, hs.status, hs.ppm, hnine, hs.opened.trans ho, hs.turns, by simp [hs.history]⟩

/-! ## The READ that never ends -/

/-- The five places of a READ of `b` that gets the irrelevant frame `f` in every cycle, `c` corrupt frames counted. -/
inductive EndlessRead (b : State) (f : Frame) (c : Nat) (s : State) : Prop where
  | awaiting (h : List ChEvent) (hs : ReadAt b .tx [] [] c h s)
  | writing (h : List ChEvent) (hs : ReadAt b .tx (frameBytes f) [okTurn, okTurn, okTurn, okTurn] c h s)
  | settling (h : List ChEvent) (hs : ReadAt b .settle (frameBytes f) [okTurn, okTurn, okTurn] c h s)
  | receiving (h : List ChEvent) (hs : ReadAt b .rx (frameBytes f) [okTurn, okTurn] c h s)
  | backingOff (h : List ChEvent) (hs : ReadAt b .backoff [] [okTurn] c h s)

section
variable {b s : State} {f : Frame} {c : Nat}

/-- Each place is followed by the next, and the last by the first. -/
theorem EndlessRead.steps (hf : classify f = .irrelevant) (hb : b.again = cycleTurns f) (hs : EndlessRead b f c s) :
    ∃ t, step s = .next t ∧ EndlessRead b f c t := by
  have hturns : cycleTurns f = [.deviceSends (frameBytes f), okTurn, okTurn, okTurn, okTurn] := if_neg (by simp [hf])
  cases hs with
  | awaiting h hs =>
    have hagain : s.again = .deviceSends (frameBytes f) :: [okTurn, okTurn, okTurn, okTurn] :=
      (hs.again.trans hb).trans hturns
    obtain ⟨t, ht, hs⟩ := hs.of_deviceSends (nextTurn_of_again_cons hs.turns hagain)
    exact ⟨t, ht, .writing _ hs⟩
  | writing h hs =>
    obtain ⟨t, ht, hs⟩ := hs.writes
    exact ⟨t, ht, .settling _ hs⟩
  | settling h hs =>
    obtain ⟨t, ht, hs⟩ := hs.settles
    exact ⟨t, ht, .receiving _ hs⟩
  | receiving h hs =>
    obtain ⟨t, ht, hs⟩ := hs.receives_irrelevant hf
    exact ⟨t, ht, .backingOff _ hs⟩
  | backingOff h hs =>
    obtain ⟨t, ht, hs⟩ := hs.backs_off
    exact ⟨t, ht, .awaiting _ hs⟩

theorem EndlessRead.reaches (hf : classify f = .irrelevant) (hb : b.again = cycleTurns f) (hs : EndlessRead b f c s)
    (n : Nat) : ∃ t, Reaches n s t ∧ EndlessRead b f c t := by
  induction n generalizing s with
  | zero => exact ⟨s, .refl s, hs⟩
  | succ n ih =>
    obtain ⟨u, hu, hs⟩ := hs.steps hf hb
    obtain ⟨t, ht, hs⟩ := ih hs
    exact ⟨t, .cons hu ht, hs⟩

/-- At none of the places has the READ ended, counted or reported anything. -/
theorem EndlessRead.unchanged (hs : EndlessRead b f c s) :
    busy s = true ∧ s.status = b.status ∧ s.failcnt.toNat = c ∧ s.ppm = b.ppm := by
  have hread : ∃ ph rx ts h, ph ≠ .idle ∧ ReadAt b ph rx ts c h s := by
    cases hs with
    | awaiting h hs | writing h hs | settling h hs | receiving h hs | backingOff h hs =>
      exact ⟨_, _, _, h, by decide, hs⟩
  obtain ⟨ph, rx, ts, h, hp, hs⟩ := hread
  exact ⟨decide_eq_true (hs.phase ▸ hp), hs.status, hs.failcnt, hs.ppm⟩

end

/-- Settles O49: the block stays at the five places of the endless READ. -/
theorem irrelevantFramesKeepAReadForEver : Obligations.IrrelevantFramesKeepAReadForEver := by
  intro s f hp hop harg hrx ht hf hagain n
  have hstart : EndlessRead s f s.failcnt.toNat s :=
    .awaiting s.history
      { phase := hp, rxStream := hrx, turns := ht, failcnt := rfl, history := rfl,
        latch := latched_of_fields rfl hop harg, opened := rfl, status := rfl, ppm := rfl, lastOp := rfl, again := rfl }
  obtain ⟨t, hrun, hend⟩ := hstart.reaches hf hagain n
  obtain ⟨hbusy, hstatus, hcount, hppm⟩ := hend.unchanged
  exact ⟨t, hrun, hbusy, hstatus, BitVec.eq_of_toNat_eq hcount, hppm⟩

end Sys2Proof.Machine
end

section
/-! The statement of 44_oneshot_commands.md. A one-shot command is two steps, one lemma each: the acceptance, which READ's
reset of `FAILCNT` is not part of, and the write, which READ's SETTLE does not follow. -/

namespace Sys2Proof.Machine

/-! ## The word of a command -/

/-- A word that decodes to an instruction with a frame is a command's: it carries the fields of the command. -/
theorem commandFields_of_decodeRequest {w : HReq} {i : Instr} {f : Frame} (hd : decodeRequest w = .ok i)
    (hf : wireFrame i = some f) : commandFields i = some (reqOp w, reqArg w) := by
  obtain ⟨-, h⟩ | ⟨-, rfl⟩ | ⟨-, rfl⟩ := (decodeRequest_eq_ok_iff w i).1 hd
  · exact h
  · cases hf
  · cases hf

/-! ## The two steps -/

/-- The first step: acceptance, and nothing else. -/
theorem step_accepts_oneShot {s : State} {a : ChanAnswer} {ts : List Turn} {w : HReq} {i : Instr} {op : Byte} {arg : U16}
    (ht : s.turns = .transceiver a :: ts) (hp : s.phase = .idle) (ho : s.opened = true) (hr : s.req = some w)
    (hd : decodeRequest w = .ok i) (hi : i ≠ .read) (hf : commandFields i = some (op, arg)) :
    step s = .next (acceptCommand i op arg (s.started a ts)) := by
  obtain ⟨-, hrequest, -⟩ := stepRunsTheFetchedInstruction s a ts ht
  have haccept : exec i (s.started a ts) = .next _ := exec_command_accepted hf hp ho
  rw [if_neg hi] at haccept
  exact (hrequest w i hp hr hd).trans haccept

/-- What a write of `f` appends to the TX stream: the frame, or on `io_err` a prefix of it (20_memory.md R36). -/
def sentBytes (b : ChanAnswer) (f : Frame) : List Byte :=
  match b.writeErr with
  | none => frameBytes f
  | some n => (frameBytes f).take n

theorem sentBytes_of_ok {b : ChanAnswer} (f : Frame) (h : b.writeErr = none) : sentBytes b f = frameBytes f := by
  simp only [sentBytes, h]

theorem sentBytes_of_writeErr {b : ChanAnswer} {n : Nat} (f : Frame) (h : b.writeErr = some n) :
    sentBytes b f = (frameBytes f).take n := by
  simp only [sentBytes, h]

/-- The second step: one write of the frame of the latch, whose answer is the outcome of the command. -/
theorem step_writes_oneShot {s : State} {b : ChanAnswer} {ts : List Turn} {i : Instr} {f : Frame}
    (ht : s.turns = .transceiver b :: ts) (hp : s.phase = .tx) (hi : i ≠ .read) (hf : wireFrame i = some f)
    (hfields : wireFields i = some (s.cmdOp, s.cmdArg)) :
    step s = .next { s.started b ts with
      txbuf := f, txStream := s.txStream ++ sentBytes b f, history := s.history ++ [.write f (b.writeErr == none)],
      phase := .idle, status := if b.writeErr = none then .ok else .errIo } := by
  obtain ⟨-, -, htx, -⟩ := stepRunsTheFetchedInstruction s b ts ht
  have hdecode := (decodeCommand_eq_ok_iff _ _ _).2 ((wireFields_eq_commandFields i).symm.trans hfields)
  obtain ⟨hok, herr⟩ := txWritesTheCommandsFrame i f (s.started b ts) hf hp hfields
  rw [htx i hp hdecode]
  cases hw : b.writeErr with
  | none => rw [hok hw, if_neg hi, if_neg hi, sentBytes_of_ok f hw]; rfl
  | some n => rw [herr n hw, sentBytes_of_writeErr f hw]; rfl

/-- Settles O27: the acceptance and then the write, read off field by field. -/
theorem oneShotIsOneWrite : Obligations.OneShotIsOneWrite := by
  intro s a b ts w i f ht hp ho hr hd hi hf
  have hcommand := commandFields_of_decodeRequest hd hf
  have hfields : wireFields i = some (reqOp w, reqArg w) := (wireFields_eq_commandFields i).trans hcommand
  have haccept := step_accepts_oneShot ht hp ho hr hd hi hcommand
  have hwrite := step_writes_oneShot
    (s := acceptCommand i (reqOp w) (reqArg w) (s.started a (.transceiver b :: ts))) rfl rfl hi hf hfields
  refine ⟨_, _, haccept, rfl, rfl, hfields, rfl, rfl, rfl, rfl, hwrite, rfl, rfl, rfl, rfl,
    fun hw => congrArg (s.txStream ++ ·) (sentBytes_of_ok f hw),
    fun n hw => congrArg (s.txStream ++ ·) (sentBytes_of_writeErr f hw), hfields, ho, rfl, rfl, rfl, rfl, rfl⟩

end Sys2Proof.Machine
end

section
/-! The statements of 60_exceptions.md: the hold of R117 and that every meaning goes on; then which steps stop the machine,
the acceptance and refusal of R118 and R119, and the error ends of R121, by the rows of the block's move. -/

namespace Sys2Proof.Machine

/-! ## Hold: the operations that are not the running one -/

theorem exec_openOp_busy {s : State} (hp : s.phase ≠ .idle) : exec .openOp s = .next s := by
  simp only [exec, execOpen, if_pos hp, holdRequest]

theorem exec_closeOp_busy {s : State} (hp : s.phase ≠ .idle) : exec .closeOp s = .next s := by
  simp only [exec, execClose, if_pos hp, holdRequest]

/-- 44_oneshot_commands.md R105: the commands other than READ share one path. -/
theorem exec_eq_oneShot {i : Instr} {op : Byte} {arg : U16} (hf : commandFields i = some (op, arg)) (hi : i ≠ .read)
    (s : State) : exec i s = oneShot i op arg s := by
  cases i with
  | openOp | closeOp | readReply => cases hf
  | read => exact absurd rfl hi
  | zero | span | abc | range2000 | range5000 => cases hf; rfl

/-- A command that the latch does not hold. -/
theorem exec_command_not_latched {i : Instr} {op : Byte} {arg : U16} {s : State} (hf : commandFields i = some (op, arg))
    (hp : s.phase = .tx) (hl : ¬ (s.cmdOp = op ∧ s.cmdArg = arg)) : exec i s = .next s := by
  by_cases hi : i = .read
  · subst hi
    cases hf
    simp only [exec, execRead, hp, if_neg hl, holdRequest]
  · simp only [exec_eq_oneShot hf hi, oneShot, hp, if_neg hl, holdRequest]

/-- 43_read.md R95: the phases after TX are no one-shot command's. -/
theorem exec_oneShot_after_tx {i : Instr} {op : Byte} {arg : U16} {s : State} (hf : commandFields i = some (op, arg))
    (hi : i ≠ .read) (hidle : s.phase ≠ .idle) (htx : s.phase ≠ .tx) : exec i s = .next s := by
  rw [exec_eq_oneShot hf hi]
  cases hp : s.phase with
  | idle => exact absurd hp hidle
  | tx => exact absurd hp htx
  | settle | rx | drain | backoff => simp only [oneShot, hp, holdRequest]

/-- Settles O23: OPEN and CLOSE test the phase, a command the latch; after TX only READ goes on. -/
theorem otherOperationsAreHeld : Obligations.OtherOperationsAreHeld := by
  refine ⟨fun s hp => ⟨exec_openOp_busy hp, exec_closeOp_busy hp⟩, fun i op arg s hfields => ?_⟩
  have hf : commandFields i = some (op, arg) := (wireFields_eq_commandFields i).symm.trans hfields
  exact ⟨exec_command_not_latched hf, exec_oneShot_after_tx hf⟩

/-! ## Every meaning answers a next state -/

/-- A latch that holds a command has a frame, so TX does not stop. -/
theorem txStep_goes_on {s : State} {i : Instr} (hl : latched s = some i) : ∃ t, txStep s = .next t := by
  obtain ⟨g, hg⟩ := commandFrame_isSome_of_latched hl
  obtain ⟨hnone, -⟩ | ⟨f, -, ⟨-, -, h⟩ | ⟨-, -, h⟩ | ⟨n, -, h⟩⟩ := txStep_cases s
  · rw [hnone] at hg
    cases hg
  · exact ⟨_, h⟩
  · exact ⟨_, h⟩
  · exact ⟨_, h⟩

theorem exec_read_after_tx_goes_on {s : State} (hidle : s.phase ≠ .idle) (htx : s.phase ≠ .tx) :
    ∃ t, exec .read s = .next t := by
  cases hp : s.phase with
  | idle => exact absurd hp hidle
  | tx => exact absurd hp htx
  | settle => exact ⟨_, exec_read_of_settle hp⟩
  | rx => exact ⟨_, exec_read_of_rx hp⟩
  | drain => exact ⟨_, exec_read_of_drain hp⟩
  | backoff => exact ⟨_, exec_read_of_backoff hp⟩

/-- A command is accepted or refused in IDLE, written or held in TX, and after TX it is READ or held. -/
theorem exec_command_goes_on {i : Instr} {op : Byte} {arg : U16} (hf : commandFields i = some (op, arg)) (s : State) :
    ∃ t, exec i s = .next t := by
  by_cases hidle : s.phase = .idle
  · exact ⟨_, exec_command_idle hf s hidle⟩
  by_cases htx : s.phase = .tx
  · by_cases hlatch : s.cmdOp = op ∧ s.cmdArg = arg
    · obtain ⟨hop, harg⟩ := hlatch
      have hl : latched s = some i := latched_of_fields hf hop harg
      rw [exec_command_tx hl htx]
      exact txStep_goes_on hl
    · exact ⟨s, exec_command_not_latched hf htx hlatch⟩
  by_cases hi : i = .read
  · subst hi
    exact exec_read_after_tx_goes_on hidle htx
  · exact ⟨s, exec_oneShot_after_tx hf hi hidle htx⟩

/-- Settles O18: a command by its phases, the others by the one phase in which they act. -/
theorem everyMeaningGoesOn : Obligations.EveryMeaningGoesOn := by
  intro i s
  cases i with
  | openOp =>
    by_cases hp : s.phase = .idle
    · exact ⟨_, exec_openOp_idle hp⟩
    · exact ⟨s, exec_openOp_busy hp⟩
  | closeOp =>
    by_cases hp : s.phase = .idle
    · exact ⟨_, exec_closeOp_idle hp⟩
    · exact ⟨s, exec_closeOp_busy hp⟩
  | readReply => exact ⟨_, rfl⟩
  | read | zero | span | abc | range2000 | range5000 => exact exec_command_goes_on rfl s

/-! ## The step that stops -/

/-- 30_encoding.md R65: an illegal word on the port of an idle block is refused. -/
theorem transceiver_of_illegal {s : State} {w : HReq} {e : DecodeError} (hp : s.phase = .idle) (hr : s.req = some w)
    (hd : decodeRequest w = .error e) : transceiver s = .next (refuseRequest s) := by
  simp only [transceiver, fetch, hp, hr, hd]

theorem transceiver_idle_goes_on {s : State} (hp : s.phase = .idle) : ∃ t, transceiver s = .next t := by
  cases hr : s.req with
  | none => exact ⟨s, transceiver_of_no_request hp hr⟩
  | some w =>
    cases hd : decodeRequest w with
    | error e => exact ⟨_, transceiver_of_illegal hp hr hd⟩
    | ok i =>
      rw [transceiver_of_fetch_run (fetch_of_request hp hr hd)]
      exact everyMeaningGoesOn i s

/-- Under the invariant the latch of a busy block holds a command, so the block does not stop. -/
theorem State.Inv.transceiver_goes_on {s : State} (hs : s.Inv) : ∃ t, transceiver s = .next t := by
  by_cases hidle : s.phase = .idle
  · exact transceiver_idle_goes_on hidle
  by_cases htx : s.phase = .tx
  · obtain ⟨-, -, hne, hlast⟩ := hs.busyLatch hidle
    obtain ⟨i, hi⟩ := Option.ne_none_iff_exists'.1 hne
    have hl : latched s = some i := hlast.trans hi
    rw [transceiver_tx htx hl]
    exact txStep_goes_on hl
  · rw [transceiver_read hidle htx]
    exact everyMeaningGoesOn .read s

/-- Of the turns only the host's read of `PPM` can stop a machine that satisfies the invariant. -/
theorem State.Inv.step_goes_on {s : State} (hs : s.Inv) (hturn : (nextTurn s).1 ≠ .hostReadsPpm) :
    ∃ t, step s = .next t := by
  have hblock (a : ChanAnswer) : (beginStep a (nextTurn s).2).Inv := hs.of_sameRegisters (.beginStep_nextTurn a s)
  cases hnext : nextTurn s with | mk turn u =>
  rw [hnext] at hblock hturn
  simp only [step, hnext]
  cases turn with
  | transceiver a => exact (hblock a).transceiver_goes_on
  | hostReadsPpm => exact absurd rfl hturn
  | _ => exact ⟨_, rfl⟩

theorem step_of_next_hostReadsPpm {s : State} (hturn : (nextTurn s).1 = .hostReadsPpm) :
    step s = hostReadsPpm (nextTurn s).2 := by
  simp only [step, hturn]

/-- Settles O19: the invariant rules out a stop in TX, and the host's read stops by its own test. -/
theorem onlyTheMeaninglessPpmReadStops : Obligations.OnlyTheMeaninglessPpmReadStops := by
  intro s hs
  by_cases hturn : (nextTurn s).1 = .hostReadsPpm
  · rw [step_of_next_hostReadsPpm hturn]
    by_cases hm : s.status = .ok ∧ s.lastOp = some .read
    · exact .inl ⟨_, hostReadsPpm_of_meaningful (by simpa using hm)⟩
    · exact .inr ⟨hostReadsPpm_of_not_meaningful (by simpa using hm), hturn, hm⟩
  · exact .inl (hs.step_goes_on hturn)

/-! ## Acceptance and refusal -/

/-- Settles O20, by the acceptance that all commands share. -/
theorem commandsAreAcceptedWhenOpen : Obligations.CommandsAreAcceptedWhenOpen := by
  intro i op arg s hfields hp ho
  exact exec_command_accepted ((wireFields_eq_commandFields i).symm.trans hfields) hp ho

theorem exec_openOp_refused {s : State} (hp : s.phase = .idle) (ho : s.opened = true) :
    exec .openOp s = .next (refuseRequest s) := by
  rw [exec_openOp_idle hp, if_pos ho]

theorem exec_closeOp_refused {s : State} (hp : s.phase = .idle) (ho : s.opened = false) :
    exec .closeOp s = .next (refuseRequest s) := by
  rw [exec_closeOp_idle hp, if_neg (Bool.eq_false_iff.1 ho)]

theorem exec_command_refused {i : Instr} {op : Byte} {arg : U16} {s : State} (hf : commandFields i = some (op, arg))
    (hp : s.phase = .idle) (ho : s.opened = false) : exec i s = .next (refuseRequest s) := by
  rw [exec_command_idle hf s hp, if_neg (Bool.eq_false_iff.1 ho)]

/-- Settles O21: OPEN refuses with the handle, CLOSE and the commands without it, an illegal word either way. -/
theorem refusedRequestsChangeNothing : Obligations.RefusedRequestsChangeNothing := by
  refine ⟨fun _ => exec_openOp_refused, fun s hp ho => ⟨exec_closeOp_refused hp ho, fun i op arg hfields => ?_⟩,
    fun s a ts w e hturn hp hr hd => ?_⟩
  · exact exec_command_refused ((wireFields_eq_commandFields i).symm.trans hfields) hp ho
  · rw [step_of_transceiver_turn hturn]
    exact transceiver_of_illegal hp hr hd

/-- 20_memory.md R45: the rows of a busy block write neither the port nor the latch. -/
theorem BlockMove.holds_request {s t : State} (h : BlockMove s t) (hbusy : s.phase ≠ .idle) :
    t.req = s.req ∧ t.refused = s.refused ∧ t.cmdOp = s.cmdOp ∧ t.cmdArg = s.cmdArg ∧ t.lastOp = s.lastOp := by
  cases h with
  | waiting hp | refused _ hp | accepted _ _ _ _ hp | openOk _ hp | openFail _ hp | closed _ hp => exact absurd hp hbusy
  | _ => exact ⟨rfl, rfl, rfl, rfl, rfl⟩

/-- Settles O22, by the rows of a busy block; the start of its step ends the last `refused` event. -/
theorem requestsAreHeldWhileBusy : Obligations.RequestsAreHeldWhileBusy := by
  intro s t a ts hturn hbusy h
  rw [step_of_transceiver_turn hturn] at h
  exact (transceiver_cases h).holds_request hbusy

/-! ## The error ends -/

/-- 60_exceptions.md R116: the rows that end in an error, by the answer or the count that is its cause. -/
theorem BlockMove.error_source {s t : State} (h : BlockMove s t) (hne : t.status ≠ s.status) :
    (t.status = .errConn →
      s.phase = .idle ∧ ∃ w, s.req = some w ∧ decodeRequest w = .ok .openOp ∧ s.chan.openOk = false) ∧
    (t.status = .errIo → s.phase = .tx ∧ s.chan.writeErr ≠ none ∨ s.phase = .rx ∧ s.chan.readErr ≠ none) ∧
    (t.status = .errCsum → s.phase = .drain ∧ s.failcnt.toNat > 8) := by
  cases h with
  | openFail w hp hr hd _ ha => exact ⟨fun _ => ⟨hp, w, hr, hd, ha⟩, nofun, nofun⟩
  | txFail f i n hp _ _ hw => exact ⟨nofun, fun _ => .inl ⟨hp, by simp [hw]⟩, nofun⟩
  | rxFail n hp hr => exact ⟨nofun, fun _ => .inr ⟨hp, by simp [hr]⟩, nofun⟩
  | drainLimit _ _ hp _ hc => exact ⟨nofun, nofun, fun _ => ⟨hp, hc⟩⟩
  | accepted | openOk | closed | txDone | rxRelevant => exact ⟨nofun, nofun, nofun⟩
  | _ => exact absurd rfl hne

/-- Settles O35: the block's rows have the table's causes, and no other turn reports an error. -/
theorem errorsComeFromTheirSources : Obligations.ErrorsComeFromTheirSources := by
  intro s t h hne
  obtain ⟨a, ha, hm⟩ | ⟨n, -, rfl⟩ | ho := step_by_kind h
  · obtain ⟨hconn, hio, hcsum⟩ := hm.error_source (by simpa using hne)
    simp only [beginStep_fields, nextTurn_fields] at hconn hio hcsum
    refine ⟨fun ht => ?_, fun ht => ⟨a, ha, hio ht⟩, hcsum⟩
    obtain ⟨hp, w, hr, hd, hopen⟩ := hconn ht
    exact ⟨hp, w, a, hr, hd, ha, hopen⟩
  · exact ⟨nofun, nofun, nofun⟩
  · exact absurd ho.registers.status hne

/-- 60_exceptions.md R121: of the rows that end in an error only TX's has written a register before. -/
theorem BlockMove.error_frame {s t : State} (h : BlockMove s t) (hne : t.status ≠ s.status)
    (herr : t.status = .errConn ∨ t.status = .errIo ∨ t.status = .errCsum) :
    t.phase = .idle ∧ t.opened = s.opened ∧ t.ppm = s.ppm ∧ t.failcnt = s.failcnt ∧ t.cmdOp = s.cmdOp ∧
    t.cmdArg = s.cmdArg ∧ t.rxbuf = s.rxbuf ∧ (s.phase ≠ .tx → t.txbuf = s.txbuf) := by
  cases h with
  | openFail _ hp => exact ⟨hp, rfl, rfl, rfl, rfl, rfl, rfl, fun _ => rfl⟩
  | txFail _ _ _ hp => exact ⟨rfl, rfl, rfl, rfl, rfl, rfl, rfl, absurd hp⟩
  | rxFail | drainLimit => exact ⟨rfl, rfl, rfl, rfl, rfl, rfl, rfl, fun _ => rfl⟩
  | accepted | openOk | closed | txDone | rxRelevant => simp at herr
  | _ => exact absurd rfl hne

/-- Settles O36, by the frame of the block's error rows; a reset reports no error. -/
theorem errorsKeepTheRegisters : Obligations.ErrorsKeepTheRegisters := by
  intro s t h hne herr
  obtain ⟨a, -, hm⟩ | ⟨n, -, rfl⟩ | ho := step_by_kind h
  · simpa using hm.error_frame (by simpa using hne) herr
  · simp [resetBlock_fields] at herr
  · exact absurd ho.registers.status hne

end Sys2Proof.Machine
end
